-- ==== Sys2Proof/Word.lean ====
section
/-!
DEFINITION. The word types of the I256 block (00_scope.md R7, R8): widths only.
-/

namespace Sys2Proof

/-- A limb: one 64-bit word of a magnitude (R7 `LIMB_W`). -/
abbrev Limb := BitVec 64

/-- A magnitude: an unsigned 256-bit integer (R7 `W`, R8, R11). -/
abbrev Mag := BitVec 256

/-- One byte of text (R17, R70). -/
abbrev Byte := BitVec 8

/-- A command word (R7 `CMD_W`, R40). -/
abbrev CmdWord := BitVec 32

end Sys2Proof
end

