-- ==== Sys2Proof/Syntax.lean ====
section
/-!
DEFINITION. The operations of the block: one constructor per row of spec/opcode_table.json
(30_encoding.md R45). The operands `A` and `B` are not part of an operation, since the command word
carries none (R40): they are fields of the request record. The one immediate is the shift count (R46).
-/

namespace Sys2Proof

/-- The seventeen operations (R45, R50). -/
inductive Instr where
  /-- test for zero (R60) -/
  | iszero
  /-- negate (R61) -/
  | neg
  /-- absolute value (R62) -/
  | abs
  /-- compare magnitudes (R63) -/
  | cmpmag
  /-- signed compare (R64) -/
  | cmp
  /-- format as hexadecimal (R71) -/
  | fmthex
  /-- format as decimal (R72) -/
  | fmtdec
  /-- signed addition (R82) -/
  | add
  /-- signed subtraction (R83) -/
  | sub
  /-- signed multiplication (R92) -/
  | mul
  /-- signed division, truncating toward zero (R102) -/
  | div
  /-- remainder with the dividend's sign (R103) -/
  | mod
  /-- bitwise AND of magnitudes and of signs (R112) -/
  | and
  /-- bitwise OR of magnitudes and of signs (R113) -/
  | or
  /-- bitwise XOR of magnitudes and of signs (R114) -/
  | xor
  /-- logical shift left by `cnt` (R122) -/
  | shl (cnt : Nat)
  /-- logical shift right by `cnt` (R123) -/
  | shr (cnt : Nat)
  deriving DecidableEq, Repr, Inhabited

/-- The three formats, named by the inputs an operation reads (R41). -/
inductive Format where
  /-- unary: reads `A` -/
  | U
  /-- binary: reads `A` and `B` -/
  | B
  /-- shift: reads `A` and `cnt` -/
  | S
  deriving DecidableEq, Repr

/-- The seven units of the block (R2). -/
inductive FunctionalUnit where
  | adder | multiplier | divider | bitwise | shifter | comparator | formatter
  deriving DecidableEq, Repr

/-- The format of an operation (R41, R45). -/
def Instr.format : Instr → Format
  | .iszero | .neg | .abs | .fmthex | .fmtdec => .U
  | .cmpmag | .cmp | .add | .sub | .mul | .div | .mod | .and | .or | .xor => .B
  | .shl _ | .shr _ => .S

/-- The unit that carries an operation out (R2). -/
def Instr.unit : Instr → FunctionalUnit
  | .add | .sub | .neg | .abs => .adder
  | .mul => .multiplier
  | .div | .mod => .divider
  | .and | .or | .xor => .bitwise
  | .shl _ | .shr _ => .shifter
  | .cmpmag | .cmp | .iszero => .comparator
  | .fmthex | .fmtdec => .formatter

end Sys2Proof
end

