-- ==== Sys2Proof/WellFormed.lean ====
section
/-!
DEFINITION. Which operations a command word can carry: the shift count is an unsigned 16-bit integer
(30_encoding.md R40, R46). Every other operation is well formed.
-/

namespace Sys2Proof

/-- The shift count fits the 16 bits `cmd[31:16]` (R46, `CNT_W` of R7). -/
def countFits (cnt : Nat) : Bool := decide (cnt < 2 ^ 16)

/-- An operation that some command word carries (R45, R46). -/
def Instr.wellFormed : Instr → Bool
  | .shl cnt => countFits cnt
  | .shr cnt => countFits cnt
  | .iszero | .neg | .abs | .cmpmag | .cmp | .fmthex | .fmtdec | .add | .sub | .mul | .div | .mod
  | .and | .or | .xor => true

end Sys2Proof
end

