-- ==== Sys2Proof/Decode.lean ====
section
/-!
DEFINITION. The command word: decoder and encoder (30_encoding.md R40 to R48). The block fetches no
instruction bytes (R21, R30); a command word is one 32-bit vector, bit 0 least significant (R8).
-/

namespace Sys2Proof

/-- `cmd[7:0]`, the opcode (R40). -/
def opcField (w : CmdWord) : BitVec 8 := w.extractLsb' 0 8

/-- `cmd[15:8]`, reserved, must be zero (R40). -/
def rsvField (w : CmdWord) : BitVec 8 := w.extractLsb' 8 8

/-- `cmd[31:16]`, the shift count (R40, R46). -/
def cntField (w : CmdWord) : BitVec 16 := w.extractLsb' 16 16

/-- Why a command word is reserved (R47), in the order in which R44 tests. -/
inductive Reserved where
  /-- `rsv` is not zero -/
  | reservedByte
  /-- `opc` is not in the table of R45 -/
  | unknownOpcode
  /-- `cnt` is not zero outside format S -/
  | strayCount
  deriving DecidableEq, Repr

/-- The opcode map of R45, with `cnt` as the immediate of the two shifts. -/
def decodeOpcode (opc : BitVec 8) (cnt : BitVec 16) : Option Instr :=
  match opc.toNat with
  | 0x01 => some .iszero
  | 0x02 => some .neg
  | 0x03 => some .abs
  | 0x04 => some .cmpmag
  | 0x05 => some .cmp
  | 0x06 => some .fmthex
  | 0x07 => some .fmtdec
  | 0x08 => some .add
  | 0x09 => some .sub
  | 0x0A => some .mul
  | 0x0B => some .div
  | 0x0C => some .mod
  | 0x0D => some .and
  | 0x0E => some .or
  | 0x0F => some .xor
  | 0x10 => some (.shl cnt.toNat)
  | 0x11 => some (.shr cnt.toNat)
  | _ => none

/-- Decoding of a command word: an operation, or the reason it is reserved (R44, R47). Total. -/
def decode (w : CmdWord) : Except Reserved Instr :=
  if rsvField w ≠ 0 then .error .reservedByte
  else
    match decodeOpcode (opcField w) (cntField w) with
    | none => .error .unknownOpcode
    | some i => if i.format ≠ .S ∧ cntField w ≠ 0 then .error .strayCount else .ok i

/-- The opcode of an operation (R45). -/
def Instr.opcode : Instr → BitVec 8
  | .iszero => 0x01
  | .neg => 0x02
  | .abs => 0x03
  | .cmpmag => 0x04
  | .cmp => 0x05
  | .fmthex => 0x06
  | .fmtdec => 0x07
  | .add => 0x08
  | .sub => 0x09
  | .mul => 0x0A
  | .div => 0x0B
  | .mod => 0x0C
  | .and => 0x0D
  | .or => 0x0E
  | .xor => 0x0F
  | .shl _ => 0x10
  | .shr _ => 0x11

/-- The value an operation puts into `cmd[31:16]`: the count in format S, zero otherwise (R40). -/
def Instr.count : Instr → Nat
  | .shl cnt | .shr cnt => cnt
  | .iszero | .neg | .abs | .cmpmag | .cmp | .fmthex | .fmtdec | .add | .sub | .mul | .div | .mod
  | .and | .or | .xor => 0

/-- The command word of an operation: `cnt`, then the reserved byte zero, then the opcode (R40, R45). -/
def encode (i : Instr) : CmdWord := BitVec.ofNat 16 i.count ++ (0 : BitVec 8) ++ i.opcode

/-- The operation the decoder reads from the bits `w` of an opcode-table row, numbered as the table
numbers them, every bit from `nbits` up being zero; none where the decoder refuses. -/
def decodeTableWord (nbits w : Nat) : Option Instr :=
  (decode (BitVec.ofNat 32 (w % 2 ^ nbits))).toOption

end Sys2Proof
end

