-- ==== Sys2Proof/Machine/Record.lean ====
section
/-!
DEFINITION. The records of the block: the value type Int256 (10_state.md R10 to R12), the request
(R16), the response (R17), the phase (R18) and the ports (70_reset_and_hazards.md R174).
-/

namespace Sys2Proof.Machine

/-- Int256: a sign bit (`true` is the bit 1, negative, R12) and a 256-bit magnitude (R10, R11). -/
structure Int256 where
  neg : Bool
  mag : Mag
  deriving DecidableEq, Repr, Inhabited

/-- `ZERO = (0, 0)` (R8, R25). -/
def Int256.zero : Int256 := ⟨false, 0⟩

/-- `ONE = (0, 1)` (R8, R25). -/
def Int256.one : Int256 := ⟨false, 1⟩

/-- The request record `REQ`, 546 bits (R16): the command word and the two operands as offered. -/
structure Request where
  cmd : CmdWord
  a : Int256
  b : Int256
  deriving DecidableEq, Repr, Inhabited

/-- The request record with every field zero. -/
def Request.zero : Request := ⟨0, Int256.zero, Int256.zero⟩

/-- The response record `RSP`, 901 bits (R17). `val` is the pair `(r_neg, r_mag)`. -/
structure Response where
  val : Int256
  ord : BitVec 2
  zf : Bool
  diag : BitVec 2
  txtLen : BitVec 7
  txt : Vector Byte 79
  deriving DecidableEq, Repr, Inhabited

/-- The response record with every field zero (R17, R44). -/
def Response.zero : Response :=
  ⟨Int256.zero, 0, false, 0, 0, ⟨(List.replicate 79 (0 : Byte)).toArray, by simp⟩⟩

/-- The phase register (R18). -/
inductive Phase where
  /-- no transaction; a request can be accepted -/
  | idle
  /-- a request is latched and its operation has not completed -/
  | busy
  /-- the response is valid and has not been taken -/
  | done
  deriving DecidableEq, Repr, Inhabited

/-- The levels the host drives on the block's input ports (R174), as sampled at one clock edge. `req`
is `req_cmd`, `req_a_*` and `req_b_*`. -/
structure PortIn where
  rst : Bool
  reqValid : Bool
  req : Request
  rspReady : Bool
  deriving DecidableEq, Repr, Inhabited

/-- Input ports with every level low. -/
def PortIn.quiet : PortIn := ⟨false, false, Request.zero, false⟩

/-- The levels the block drives on its output ports (R174). `rsp` is the `rsp_*` data. -/
structure PortOut where
  reqReady : Bool
  rspValid : Bool
  rsp : Response
  deriving DecidableEq, Repr, Inhabited

end Sys2Proof.Machine
end

