-- ==== Sys2Proof/Config.lean ====
section
/-!
DEFINITION. The implementation parameters of 00_scope.md R7 and the values the spec leaves open: each
open value is an opaque constant with no body, so that no proof can see what it is. Each is applied to
the model's own counter `State.draws`, so that two draws need not agree.
-/

namespace Sys2Proof.Config

/-- `W`: width of the magnitude in bits (R7). -/
def magWidth : Nat := 256

/-- `LIMB_W`: width of one limb in bits (R7). -/
def limbWidth : Nat := 64

/-- `NLIMB`: limbs per magnitude, limb 0 most significant (R7). -/
def numLimbs : Nat := 4

/-- `DEC_CHUNK`: divisor of the decimal formatter (R7). -/
def decChunk : Nat := 1000000000

/-- `DEC_CHUNK_DIGITS`: decimal digits per chunk (R7). -/
def decChunkDigits : Nat := 9

/-- `PROD_LIMBS`: limbs of the multiplier's buffer (R7). -/
def prodLimbs : Nat := 8

/-- `DIV_ITER`: iterations of the long division (R7). -/
def divIter : Nat := 256

/-- `TXT_MAX`: bytes of the response text buffer (R7). -/
def txtMax : Nat := 79

/-- `CMD_W`: width of the command word (R7). -/
def cmdWidth : Nat := 32

/-- `OPC_W`: width of the opcode field (R7). -/
def opcWidth : Nat := 8

/-- `CNT_W`: width of the shift-count field (R7). -/
def cntWidth : Nat := 16

/-- `TXT_LEN_W`: width of the text-length field (R7). -/
def txtLenWidth : Nat := 7

/-- FREE VALUE. How many clock edges, beyond the one at which it executes, a request stays in `BUSY`:
finite and otherwise unspecified, and it may depend on the operation and its operands (R180, U9). DESIGN
CHOICE: it does not depend on what `REQ` and `RSP` held before the request was accepted. Log entry 2. -/
opaque latency : Nat → Machine.Request → Nat

/-- FREE VALUE. The `rsp_*` data outputs while `rsp_valid` is 0 (R175, U1). They may hold any value,
"including the previous response or a partial result" (R175), so it is applied to the draw, the phase,
`REQ`, `RSP`, the edges left in `BUSY` and the levels on the input ports. DESIGN CHOICE: beside these it
depends on nothing, `State.offer` in particular. Log entry 5. -/
opaque undrivenResponse :
  Nat → Machine.Phase → Machine.Request → Machine.Response → Nat → Machine.PortIn → Machine.Response

/-- FREE VALUE. The contents of `REQ` after an edge at which `rst` was asserted: any value (R26, R170, U1),
so it is applied to the draw, the phase, `REQ`, `RSP`, the edges left in `BUSY` and the levels on the input
ports, as they were at that edge. DESIGN CHOICE: beside these it depends on nothing, `State.offer` in
particular. Log entry 6. -/
opaque requestAfterRst :
  Nat → Machine.Phase → Machine.Request → Machine.Response → Nat → Machine.PortIn → Machine.Request

/-- FREE VALUE. The contents of `RSP` after an edge at which `rst` was asserted: any value (R26, R170, U1),
applied to the same as `requestAfterRst`. DESIGN CHOICE: beside these it depends on nothing, `State.offer` in
particular. Log entry 6. -/
opaque responseAfterRst :
  Nat → Machine.Phase → Machine.Request → Machine.Response → Nat → Machine.PortIn → Machine.Response

end Sys2Proof.Config
end

