-- ==== Sys2Proof/Machine/State.lean ====
section
/-!
DEFINITION. The state of the block (10_state.md R16 to R19, R26), the levels on its input ports
(70_reset_and_hazards.md R174), and three fields of the model's own that the open points of the spec
need: `offer` (R176), `latency` (R180) and `draws` (the counter the free values are applied to). The
block has no registers, no program counter and no memory (R20, R21, R30).
-/

namespace Sys2Proof.Machine

/-- Why the machine stops with a fault: never. "No operation is fatal and none stops the block" (R157),
no operation traps (R150), and the type is closed with no constructor, so `step` cannot fault. -/
inductive Fault where
  deriving DecidableEq, Repr

/-- Why a step has no meaning. -/
inductive Refusal where
  /-- An arm of `exec` that has no meaning yet; raised by the dispatcher only, and by no arm of this
  model. Safe: the run stops. -/
  | notModelled (mnemonic : String)
  /-- The host dropped or changed a request it had offered and the block had not accepted: it broke
  duty (a) of R176, after which the spec defines nothing (93_implementation_defined.md U2, treatment
  `refuse`). Raised by `step` only. Safe: such a run is outside the spec. -/
  | hostBrokeHandshake
  deriving DecidableEq, Repr

/-- The whole state. -/
structure State where
  /-- the phase register (R18) -/
  phase : Phase
  /-- the latched request `REQ` (R16) -/
  req : Request
  /-- the response `RSP` (R17) -/
  rsp : Response
  /-- the levels on the input ports that the next clock edge samples (R174); the host's to drive, no
  step changes them -/
  pins : PortIn
  /-- MODEL'S OWN: the request that was on offer at the last edge and was not accepted there, which
  the host must go on offering unchanged (R176 (a)) -/
  offer : Option Request
  /-- MODEL'S OWN: clock edges left in `BUSY` before the one that executes (R180) -/
  latency : Nat
  /-- MODEL'S OWN: how many free values have been drawn so far -/
  draws : Nat
  deriving DecidableEq, Repr

/-- The state after reset (R26, R170): `IDLE`. The spec gives `REQ` and `RSP` no value there; the
model names zero (log entry 1, DESIGN CHOICE). The host drives nothing yet (log entry 3). -/
def State.reset : State where
  phase := .idle
  req := Request.zero
  rsp := Response.zero
  pins := PortIn.quiet
  offer := none
  latency := 0
  draws := 0

/-- The host's move between two clock edges: it sets the levels on the input ports (R174, R177). -/
def State.drive (p : PortIn) (s : State) : State := { s with pins := p }

end Sys2Proof.Machine
end

