-- ==== Sys2Proof/Machine/Ops.lean ====
section
/-!
DEFINITION. The operations shared by the meanings: canonicalisation, limbs and the limb primitives
(00_scope.md R8, R9), the magnitude comparator (40_value_ops.md R63), the carry and borrow chains
(42_add_sub.md R80, R81), the text buffer (R17, R32), and the completion of a transaction
(10_state.md R19), with the one way a reserved command word completes (30_encoding.md R47).
-/

namespace Sys2Proof.Machine

/-- `canon(s, m)` (R8): a zero magnitude is positive (R13). -/
def canon (neg : Bool) (m : Mag) : Int256 := if m = 0 then ⟨false, 0⟩ else ⟨neg, m⟩

/-- `val(x)`, the integer an Int256 denotes (R8). -/
def Int256.toInt (x : Int256) : Int := if x.neg then -(x.mag.toNat : Int) else (x.mag.toNat : Int)

/-- `limb(m, i) = m[255 − 64·i : 192 − 64·i]`, limb 0 most significant (R8, R11). -/
def limb (m : Mag) (i : Nat) : Limb := m.extractLsb' (192 - 64 * i) 64

/-- The magnitude with the given limbs, limb 0 first (R8, R11). -/
def ofLimbs (l0 l1 l2 l3 : Limb) : Mag := l0 ++ l1 ++ l2 ++ l3

/-- Add with carry: sum and carry-out (R9). -/
def adc64 (x y : Limb) (cin : Bool) : Limb × Bool :=
  let wide := x.toNat + y.toNat + cin.toNat
  (BitVec.ofNat 64 wide, decide (wide / 2 ^ 64 = 1))

/-- Subtract with borrow: difference and borrow-out (R9). -/
def sbb64 (x y : Limb) (bin : Bool) : Limb × Bool :=
  let d : Int := x.toNat - y.toNat - bin.toNat
  (BitVec.ofInt 64 d, decide (d < 0))

/-- The two halves of a limb product: high, low (R9). -/
def mul64 (x y : Limb) : Limb × Limb :=
  let p := x.toNat * y.toNat
  (BitVec.ofNat 64 (p / 2 ^ 64), BitVec.ofNat 64 (p % 2 ^ 64))

/-- Limb by limb comparison over the limb indices given, most significant first (R63). -/
def cmpLimbs (x y : Mag) : List Nat → Ordering
  | [] => .eq
  | i :: is =>
    if (limb x i).toNat > (limb y i).toNat then .gt
    else if (limb x i).toNat < (limb y i).toNat then .lt
    else cmpLimbs x y is

/-- The magnitude comparator `cmpmag` (R63); `.gt` is +1, `.eq` is 0, `.lt` is -1. -/
def cmpmag (x y : Mag) : Ordering := cmpLimbs x y [0, 1, 2, 3]

/-- Magnitude addition with carry chain, least significant limb first (R80): sum and carry out. -/
def addmag (x y : Mag) : Mag × Bool :=
  let (s3, c3) := adc64 (limb x 3) (limb y 3) false
  let (s2, c2) := adc64 (limb x 2) (limb y 2) c3
  let (s1, c1) := adc64 (limb x 1) (limb y 1) c2
  let (s0, c0) := adc64 (limb x 0) (limb y 0) c1
  (ofLimbs s0 s1 s2 s3, c0)

/-- Magnitude subtraction with borrow chain, least significant limb first (R81); called with `x ≥ y`. -/
def submag (x y : Mag) : Mag :=
  let (d3, b3) := sbb64 (limb x 3) (limb y 3) false
  let (d2, b2) := sbb64 (limb x 2) (limb y 2) b3
  let (d1, b1) := sbb64 (limb x 1) (limb y 1) b2
  let (d0, _) := sbb64 (limb x 0) (limb y 0) b1
  ofLimbs d0 d1 d2 d3

/-- The text buffer that holds `s` from `txt[0]` on, and zero bytes after it (R17, R32). -/
def textBuffer (s : List Byte) : Vector Byte 79 :=
  ⟨((List.range 79).map fun i => s.getD i 0).toArray, by simp⟩

/-- What a step answers. -/
abbrev Result := Host.Outcome State Fault Refusal

/-- `execute`: `RSP <- r ; phase <- DONE` (R19). Every operation ends in this, whatever its diagnostic
(R150, R157). -/
def State.complete (r : Response) (s : State) : Result := .next { s with phase := .done, rsp := r }

end Sys2Proof.Machine
end

