-- ==== Sys2Proof/Machine/Operands.lean ====
section
/-!
DEFINITION. What an operation reads (10_state.md R15, R16; 30_encoding.md R41, R42): the operands of
the latched request, each through `canon`. The shift count is the immediate the decoder reads (R46).
-/

namespace Sys2Proof.Machine

/-- Operand `A`, canonicalised (R15, R44). -/
def State.opA (s : State) : Int256 := canon s.req.a.neg s.req.a.mag

/-- Operand `B`, canonicalised (R15, R44). -/
def State.opB (s : State) : Int256 := canon s.req.b.neg s.req.b.mag

/-- The command word of the latched request, which selects the operation (R40). -/
def State.command (s : State) : CmdWord := s.req.cmd

end Sys2Proof.Machine
end

