-- ==== Sys2Proof/Machine/Flags.lean ====
section
/-!
DEFINITION. The condition outputs of a response (10_state.md R17, R22): the diagnostic codes
(60_exceptions.md R151), the ordering code (R17, 40_value_ops.md R63), the zero flag (R60); and the
shapes a response takes, one for each row of 30_encoding.md R43. Every field not named is zero.
-/

namespace Sys2Proof.Machine

/-- The diagnostics (R151). -/
inductive Diag where
  /-- NONE: nothing to report -/
  | none
  /-- OVERFLOW (warning): the true result needs more than 256 bits -/
  | overflow
  /-- DIV_ZERO (error): the divisor is zero -/
  | divZero
  /-- ILLEGAL_OP (error): reserved command word -/
  | illegalOp
  deriving DecidableEq, Repr

/-- The 2-bit code of a diagnostic (R151). -/
def Diag.code : Diag → BitVec 2
  | .none => 0b00
  | .overflow => 0b01
  | .divZero => 0b10
  | .illegalOp => 0b11

/-- `enc` (R63): equal `00`, first greater `01`, first less `11`. -/
def ordCode : Ordering → BitVec 2
  | .eq => 0b00
  | .gt => 0b01
  | .lt => 0b11

/-- OVERFLOW exactly when the condition holds, else NONE. -/
def overflowIf (c : Bool) : Diag := if c then .overflow else .none

/-- The response of an operation that produces a value and a diagnostic (R43). -/
def Response.ofValue (v : Int256) (d : Diag) : Response :=
  { Response.zero with val := v, diag := d.code }

/-- The response of an operation that produces an ordering (R43). -/
def Response.ofOrd (o : Ordering) : Response := { Response.zero with ord := ordCode o }

/-- The response of an operation that produces the zero flag (R43). -/
def Response.ofFlag (z : Bool) : Response := { Response.zero with zf := z }

/-- The response of an operation that produces text (R43). -/
def Response.ofText (t : List Byte) : Response :=
  { Response.zero with txtLen := BitVec.ofNat 7 t.length, txt := textBuffer t }

/-- The response to a reserved command word: ILLEGAL_OP, every other field zero (R43, R47). -/
def Response.illegal : Response := { Response.zero with diag := Diag.illegalOp.code }

/-- How a transaction with a reserved command word completes: like any other, with ILLEGAL_OP, the
operands not examined (R47, R150). It is the one thing in the block that stands where another machine
takes an exception; nothing is saved and there is nothing to return from (R150). -/
def State.takeIllegal (s : State) : Result := s.complete Response.illegal

end Sys2Proof.Machine
end

