-- ==== Sys2Proof/Machine/ValueOps.lean ====
section
/-!
DEFINITION. The value operations and the comparator (40_value_ops.md R60 to R64).
-/

namespace Sys2Proof.Machine

/-- ISZERO (R60): the zero flag; the sign is not examined. -/
def execIszero (s : State) : Result := s.complete (.ofFlag (decide (s.opA.mag = 0)))

/-- The negation of a canonical value: the sign flips unless it is zero (R61). -/
def negate (x : Int256) : Int256 := canon (!x.neg) x.mag

/-- NEG (R61). -/
def execNeg (s : State) : Result := s.complete (.ofValue (negate s.opA) .none)

/-- ABS (R62): the sign is forced positive. -/
def execAbs (s : State) : Result := s.complete (.ofValue ⟨false, s.opA.mag⟩ .none)

/-- CMPMAG (R63): the signs are ignored. -/
def execCmpmag (s : State) : Result := s.complete (.ofOrd (cmpmag s.opA.mag s.opB.mag))

/-- The signed comparison `cmp` (R64): differing signs order by sign, equal signs by magnitude,
inverted when both are negative. -/
def cmpSigned (a b : Int256) : Ordering :=
  if a.neg != b.neg then (if a.neg then .lt else .gt)
  else if a.neg then (cmpmag a.mag b.mag).swap
  else cmpmag a.mag b.mag

/-- CMP (R64). -/
def execCmp (s : State) : Result := s.complete (.ofOrd (cmpSigned s.opA s.opB))

end Sys2Proof.Machine
end

