-- ==== Sys2Proof/Machine/AddSub.lean ====
section
/-!
DEFINITION. The sign-magnitude adder (42_add_sub.md R82, R83).
-/

namespace Sys2Proof.Machine

/-- `add(a, b)` (R82): the value and the diagnostic. -/
def addSigned (a b : Int256) : Int256 × Diag :=
  if a.neg = b.neg then
    (canon a.neg (addmag a.mag b.mag).1, overflowIf (addmag a.mag b.mag).2)
  else
    match cmpmag a.mag b.mag with
    | .eq => (Int256.zero, .none)
    | .gt => (canon a.neg (submag a.mag b.mag), .none)
    | .lt => (canon b.neg (submag b.mag a.mag), .none)

/-- ADD (R82). -/
def execAdd (s : State) : Result :=
  s.complete (.ofValue (addSigned s.opA s.opB).1 (addSigned s.opA s.opB).2)

/-- SUB (R83): the addition of the negated second operand. -/
def execSub (s : State) : Result :=
  s.complete (.ofValue (addSigned s.opA (negate s.opB)).1 (addSigned s.opA (negate s.opB)).2)

end Sys2Proof.Machine
end

