-- ==== Sys2Proof/Machine/Bitwise.lean ====
section
/-!
DEFINITION. The bitwise unit (45_bitwise.md R110 to R114): the same operator on the magnitudes, limb by
limb, and on the two sign bits, then `canon`.
-/

namespace Sys2Proof.Machine

/-- The limb-wise combination of two magnitudes (R110). -/
def limbwise (op : Limb → Limb → Limb) (x y : Mag) : Mag :=
  ofLimbs (op (limb x 0) (limb y 0)) (op (limb x 1) (limb y 1)) (op (limb x 2) (limb y 2))
    (op (limb x 3) (limb y 3))

/-- AND (R112). -/
def execAnd (s : State) : Result :=
  s.complete (.ofValue
    (canon (s.opA.neg && s.opB.neg) (limbwise (· &&& ·) s.opA.mag s.opB.mag)) .none)

/-- OR (R113). -/
def execOr (s : State) : Result :=
  s.complete (.ofValue
    (canon (s.opA.neg || s.opB.neg) (limbwise (· ||| ·) s.opA.mag s.opB.mag)) .none)

/-- XOR (R114). -/
def execXor (s : State) : Result :=
  s.complete (.ofValue
    (canon (s.opA.neg ^^ s.opB.neg) (limbwise (· ^^^ ·) s.opA.mag s.opB.mag)) .none)

end Sys2Proof.Machine
end

