-- ==== Sys2Proof/Machine/Divide.lean ====
section
/-!
DEFINITION. The binary long-division engine (44_divide.md R100 to R104).
-/

namespace Sys2Proof.Machine

/-- The running remainder after its shift in iteration `k`: `(r * 2) + x[k]`; 256 bits suffice (R100,
R104). -/
def shiftIn (x : Mag) (k : Nat) (r : Mag) : Mag := BitVec.ofNat 256 (r.toNat * 2 + (x.getLsbD k).toNat)

/-- The running quotient shifted left by one (R100). -/
def shiftQuot (q : Mag) : Mag := BitVec.ofNat 256 (q.toNat * 2)

/-- Compare, conditionally subtract and set the new low bit (R100): the comparison is `cmpmag` and the
subtraction is the borrow chain. -/
def restore (y q r : Mag) : Mag × Mag :=
  match cmpmag r y with
  | .lt => (q, r)
  | .eq | .gt => (q + 1, submag r y)

/-- Iteration `k` of the restoring division, on the pair (quotient, remainder) (R100). -/
def divStep (x y : Mag) (k : Nat) (qr : Mag × Mag) : Mag × Mag :=
  restore y (shiftQuot qr.1) (shiftIn x k qr.2)

/-- Iterations `k - 1` down to 0 (R100). -/
def divLoop (x y : Mag) : Nat → Mag × Mag → Mag × Mag
  | 0, qr => qr
  | k + 1, qr => divLoop x y k (divStep x y k qr)

/-- `udivrem(x, y)` for `y ≠ 0`: quotient and remainder (R100). -/
def udivrem (x y : Mag) : Mag × Mag := divLoop x y Config.divIter (0, 0)

/-- Signed division truncating toward zero (R101, R102). -/
def divSigned (a b : Int256) : Int256 × Diag :=
  if b.mag = 0 then (Int256.zero, .divZero)
  else if cmpmag a.mag b.mag = .lt then (Int256.zero, .none)
  else (canon (a.neg ^^ b.neg) (udivrem a.mag b.mag).1, .none)

/-- Remainder with the dividend's sign (R101, R103). -/
def modSigned (a b : Int256) : Int256 × Diag :=
  if b.mag = 0 then (Int256.zero, .divZero)
  else if cmpmag a.mag b.mag = .lt then (a, .none)
  else (canon a.neg (udivrem a.mag b.mag).2, .none)

/-- DIV (R102). -/
def execDiv (s : State) : Result :=
  s.complete (.ofValue (divSigned s.opA s.opB).1 (divSigned s.opA s.opB).2)

/-- MOD (R103). -/
def execMod (s : State) : Result :=
  s.complete (.ofValue (modSigned s.opA s.opB).1 (modSigned s.opA s.opB).2)

end Sys2Proof.Machine
end

