-- ==== Sys2Proof/Machine/Format.lean ====
section
/-!
DEFINITION. The base-conversion formatter (41_format.md R70 to R73).
-/

namespace Sys2Proof.Machine

/-- The minus sign, `-` (R70). -/
def minusSign : Byte := 0x2D

/-- `hexdigit(d)` for `d` in 0..15, lowercase (R70). -/
def hexDigit (d : Nat) : Byte := if d < 10 then BitVec.ofNat 8 (0x30 + d) else BitVec.ofNat 8 (0x61 + d - 10)

/-- `decdigit(d)` for `d` in 0..9 (R70). -/
def decDigit (d : Nat) : Byte := BitVec.ofNat 8 (0x30 + d)

/-- The `n` low digits of `v` in a base, most significant first, zero-padded. -/
def fixedDigits (base v : Nat) : Nat → List Nat
  | 0 => []
  | n + 1 => v / base ^ n % base :: fixedDigits base v n

/-- Digits without the leading zeros. -/
def dropZeros (ds : List Nat) : List Nat := ds.dropWhile (· == 0)

/-- The minus sign if the value is negative, else nothing (R71, R72). -/
def signText (neg : Bool) : List Byte := if neg then [minusSign] else []

/-- `hex16(v)`: exactly 16 hex digits (R71). -/
def hex16 (v : Limb) : List Byte := (fixedDigits 16 v.toNat 16).map hexDigit

/-- `hexmin(v)`: no leading zeros, `0` for zero (R71). -/
def hexMin (v : Limb) : List Byte :=
  if v = 0 then [hexDigit 0] else (dropZeros (fixedDigits 16 v.toNat 16)).map hexDigit

/-- The digits of the limbs listed, most significant first: leading zero limbs are suppressed but for
the last limb, the first limb emitted is printed by `hexmin` and the others by `hex16` (R71). -/
def hexLimbs : List Limb → List Byte
  | [] => []
  | [l] => hexMin l
  | l :: ls => if l = 0 then hexLimbs ls else hexMin l ++ (ls.map hex16).flatten

/-- The text of FMTHEX (R71). -/
def formatHex (x : Int256) : List Byte :=
  signText x.neg ++ [0x30, 0x78] ++
    hexLimbs [limb x.mag 0, limb x.mag 1, limb x.mag 2, limb x.mag 3]

/-- FMTHEX (R71). -/
def execFmthex (s : State) : Result := s.complete (.ofText (formatHex s.opA))

/-- One step of the chunked division: quotient and remainder by 10⁹ (R73). -/
def chunkStep (m : Mag) : Mag × Nat :=
  (BitVec.ofNat 256 (m.toNat / Config.decChunk), m.toNat % Config.decChunk)

/-- The loop of R72, `while m != 0`, prepending each chunk. At most `fuel` chunks are taken; nine
suffice for every magnitude (R72, log entry 8). -/
def chunkLoop : Nat → Mag → List Nat → List Nat
  | 0, _, chunks => chunks
  | fuel + 1, m, chunks =>
    if m = 0 then chunks else chunkLoop fuel (chunkStep m).1 ((chunkStep m).2 :: chunks)

/-- The chunks of a magnitude, most significant first (R72). -/
def chunks (m : Mag) : List Nat := chunkLoop 9 m []

/-- `dec9(c)`: exactly 9 decimal digits (R72). -/
def dec9 (c : Nat) : List Byte := (fixedDigits 10 c Config.decChunkDigits).map decDigit

/-- `decmin(c)`: no leading zeros; `c` is not 0 (R72). -/
def decMin (c : Nat) : List Byte := (dropZeros (fixedDigits 10 c Config.decChunkDigits)).map decDigit

/-- The leading chunk by `decmin`, every later one by `dec9` (R72). -/
def renderChunks : List Nat → List Byte
  | [] => []
  | c :: cs => decMin c ++ (cs.map dec9).flatten

/-- The text of FMTDEC (R72). -/
def formatDec (x : Int256) : List Byte :=
  if x.mag = 0 then [decDigit 0] else signText x.neg ++ renderChunks (chunks x.mag)

/-- FMTDEC (R72). -/
def execFmtdec (s : State) : Result := s.complete (.ofText (formatDec s.opA))

end Sys2Proof.Machine
end

