-- ==== Sys2Proof/Machine/Multiply.lean ====
section
/-!
DEFINITION. The schoolbook multiplier (43_multiply.md R90 to R92).
-/

namespace Sys2Proof.Machine

/-- The sixteen pairs of limb indices, in the order of the two loops of R91. -/
def limbPairs : List (Nat × Nat) :=
  [(0, 0), (0, 1), (0, 2), (0, 3), (1, 0), (1, 1), (1, 2), (1, 3),
   (2, 0), (2, 1), (2, 2), (2, 3), (3, 0), (3, 1), (3, 2), (3, 3)]

/-- The weight, in limbs, of the product of limb `i` and limb `j` (R90). -/
def pairWeight (i j : Nat) : Nat := (3 - i) + (3 - j)

/-- What the pair `(i, j)` puts into the column of weight `k`: its low half at its own weight, its high
half one above (R90, R91). -/
def columnPart (x y : Mag) (k : Nat) (p : Nat × Nat) : Nat :=
  (if pairWeight p.1 p.2 = k then (mul64 (limb x p.1) (limb y p.2)).2.toNat else 0) +
  (if pairWeight p.1 p.2 + 1 = k then (mul64 (limb x p.1) (limb y p.2)).1.toNat else 0)

/-- The column accumulator `col[k]`, of weight `2^(64k)` (R91). -/
def column (x y : Mag) (k : Nat) : Nat := (limbPairs.map (columnPart x y k)).sum

/-- The upward ripple over the columns, least significant first: the limbs, least significant first
(R91). -/
def ripple : List Nat → Nat → List Limb
  | [], _ => []
  | col :: cols, c => BitVec.ofNat 64 (col + c) :: ripple cols ((col + c) / 2 ^ 64)

/-- `mulmag(x, y)`: the product buffer `P[0..7]`, most significant limb first (R91). -/
def mulmag (x y : Mag) : List Limb :=
  (ripple ((List.range Config.prodLimbs).map (column x y)) 0).reverse

/-- `P[n]` of a product buffer (R90). -/
def prodLimb (p : List Limb) (n : Nat) : Limb := p.getD n 0

/-- The low four limbs of the buffer (R92). -/
def prodLow (p : List Limb) : Mag := ofLimbs (prodLimb p 4) (prodLimb p 5) (prodLimb p 6) (prodLimb p 7)

/-- Whether the high four limbs of the buffer hold anything (R92). -/
def prodHighNonzero (p : List Limb) : Bool :=
  prodLimb p 0 != 0 || prodLimb p 1 != 0 || prodLimb p 2 != 0 || prodLimb p 3 != 0

/-- Signed multiplication (R92): the value and the diagnostic. -/
def mulSigned (a b : Int256) : Int256 × Diag :=
  let p := mulmag a.mag b.mag
  (canon (a.neg ^^ b.neg) (prodLow p), overflowIf (prodHighNonzero p))

/-- MUL (R92). -/
def execMul (s : State) : Result :=
  s.complete (.ofValue (mulSigned s.opA s.opB).1 (mulSigned s.opA s.opB).2)

end Sys2Proof.Machine
end

