-- ==== Sys2Proof/Machine/Shift.lean ====
section
/-!
DEFINITION. The logical shifters (46_shift.md R120 to R123): a whole-limb move and a sub-limb shift.
-/

namespace Sys2Proof.Machine

/-- `L[i]`, which is 0 for an index outside 0..3 (R121). -/
def limbOrZero (m : Mag) (i : Int) : Nat :=
  if 0 ≤ i ∧ i ≤ 3 then (limb m i.toNat).toNat else 0

/-- `R[i]` of the left shift by `64·q + r` (R121). -/
def shlLimb (m : Mag) (q r : Nat) (i : Int) : Limb :=
  if r = 0 then BitVec.ofNat 64 (limbOrZero m (i + q))
  else BitVec.ofNat 64 (limbOrZero m (i + q) * 2 ^ r % 2 ^ 64) |||
    BitVec.ofNat 64 (limbOrZero m (i + q + 1) / 2 ^ (64 - r))

/-- `R[i]` of the right shift by `64·q + r` (R121). -/
def shrLimb (m : Mag) (q r : Nat) (i : Int) : Limb :=
  if r = 0 then BitVec.ofNat 64 (limbOrZero m (i - q))
  else BitVec.ofNat 64 (limbOrZero m (i - q) / 2 ^ r) |||
    BitVec.ofNat 64 (limbOrZero m (i - q - 1) * 2 ^ (64 - r) % 2 ^ 64)

/-- `shlmag(m, n)` for `n` in 0..255 (R121). -/
def shlmag (m : Mag) (n : Nat) : Mag :=
  let q := n / 64
  let r := n % 64
  ofLimbs (shlLimb m q r 0) (shlLimb m q r 1) (shlLimb m q r 2) (shlLimb m q r 3)

/-- `shrmag(m, n)` for `n` in 0..255 (R121). -/
def shrmag (m : Mag) (n : Nat) : Mag :=
  let q := n / 64
  let r := n % 64
  ofLimbs (shrLimb m q r 0) (shrLimb m q r 1) (shrLimb m q r 2) (shrLimb m q r 3)

/-- SHL (R122): amounts of 256 and more give zero magnitude; the sign is carried through. -/
def execShl (cnt : Nat) (s : State) : Result :=
  s.complete (.ofValue
    (canon s.opA.neg (if cnt ≥ 256 then 0 else shlmag s.opA.mag cnt)) .none)

/-- SHR (R123): amounts of 256 and more give zero magnitude; the sign is carried through. -/
def execShr (cnt : Nat) (s : State) : Result :=
  s.complete (.ofValue
    (canon s.opA.neg (if cnt ≥ 256 then 0 else shrmag s.opA.mag cnt)) .none)

end Sys2Proof.Machine
end

