-- ==== Sys2Proof/Machine/Dispatch.lean ====
section
/-! DEFINITION. One arm per operation (30_encoding.md R44, R45). -/

namespace Sys2Proof.Machine

/-- The rule of an operation, applied to the latched request (R44). -/
def exec (i : Instr) (s : State) : Host.Outcome State Fault Refusal :=
  match i with
  | .iszero => Sys2Proof.Machine.execIszero s
  | .neg => Sys2Proof.Machine.execNeg s
  | .abs => Sys2Proof.Machine.execAbs s
  | .cmpmag => Sys2Proof.Machine.execCmpmag s
  | .cmp => Sys2Proof.Machine.execCmp s
  | .fmthex => Sys2Proof.Machine.execFmthex s
  | .fmtdec => Sys2Proof.Machine.execFmtdec s
  | .add => Sys2Proof.Machine.execAdd s
  | .sub => Sys2Proof.Machine.execSub s
  | .mul => Sys2Proof.Machine.execMul s
  | .div => Sys2Proof.Machine.execDiv s
  | .mod => Sys2Proof.Machine.execMod s
  | .and => Sys2Proof.Machine.execAnd s
  | .or => Sys2Proof.Machine.execOr s
  | .xor => Sys2Proof.Machine.execXor s
  | .shl cnt => Sys2Proof.Machine.execShl cnt s
  | .shr cnt => Sys2Proof.Machine.execShr cnt s

end Sys2Proof.Machine
end

