-- ==== Sys2Proof/Machine/Ports.lean ====
section
/-!
DEFINITION. What a clock edge does besides executing an operation (10_state.md R19;
70_reset_and_hazards.md R170, R174 to R177): reset, accept, waiting, take, and the output ports.
Each is one update of the state.
-/

namespace Sys2Proof.Machine

/-- Duty (a) of R176 at this edge: a request offered earlier and not accepted is still offered,
unchanged. -/
def State.dutyKept (s : State) : Bool :=
  match s.offer with
  | none => true
  | some r => s.pins.reqValid && decide (s.pins.req = r)

/-- The offer that stands after an edge at which nothing is accepted (R176 (a)). -/
def State.standingOffer (s : State) : Option Request :=
  if s.pins.reqValid then some s.pins.req else none

/-- An edge at which nothing is accepted leaves the host's offer standing. -/
def State.sampled (s : State) : State := { s with offer := s.standingOffer }

/-- An edge with `rst` asserted: no request is accepted, a transaction in flight is abandoned, `IDLE`
follows, and `REQ` and `RSP` are unspecified (R26, R170). Log entry 6. -/
def State.resetEdge (s : State) : State :=
  { s with
    phase := .idle
    req := Config.requestAfterRst s.draws s.phase s.req s.rsp s.latency s.pins
    rsp := Config.responseAfterRst s.draws s.phase s.req s.rsp s.latency s.pins
    offer := s.standingOffer
    latency := 0
    draws := s.draws + 1 }

/-- `accept`: `REQ <- req ; phase <- BUSY` (R19), at an edge where `req_valid` and `req_ready` are both
1 (R174). How long the operation will take is drawn here (R180). -/
def State.accept (s : State) : State :=
  { s with
    phase := .busy
    req := s.pins.req
    offer := none
    latency := Config.latency s.draws s.pins.req
    draws := s.draws + 1 }

/-- An edge at which no step of R19 happens. -/
def State.waitEdge (s : State) : State := { s.sampled with draws := s.draws + 1 }

/-- An edge in `BUSY` before the one that executes, `n` more being left (R174, R180). -/
def State.busyEdge (n : Nat) (s : State) : State := { s.waitEdge with latency := n }

/-- `take`: the host receives `RSP`; `phase <- IDLE` (R19, R33), at an edge where `rsp_valid` and
`rsp_ready` are both 1 (R174). -/
def State.take (s : State) : State := { s.waitEdge with phase := .idle }

/-- An edge in `IDLE` (R19, R174). -/
def State.idleEdge (s : State) : State := if s.pins.reqValid then s.accept else s.waitEdge

/-- An edge in `DONE` (R19, R174, R175). -/
def State.doneEdge (s : State) : State := if s.pins.rspReady then s.take else s.waitEdge

/-- `req_ready`: 1 iff `phase = IDLE` (R174), and 0 while `rst` is asserted (R170). -/
def State.reqReady (s : State) : Bool := decide (s.phase = .idle) && !s.pins.rst

/-- `rsp_valid`: 1 iff `phase = DONE` (R174), and 0 while `rst` is asserted (R170). -/
def State.rspValid (s : State) : Bool := decide (s.phase = .done) && !s.pins.rst

/-- The `rsp_*` data while `rsp_valid` is 0, unspecified (R175). Log entry 5. -/
def State.undriven (s : State) : Response :=
  Config.undrivenResponse s.draws s.phase s.req s.rsp s.latency s.pins

/-- The output ports (R174, R175): the response while it is valid, unspecified data otherwise. -/
def State.outputs (s : State) : PortOut :=
  { reqReady := s.reqReady
    rspValid := s.rspValid
    rsp := if s.rspValid then s.rsp else s.undriven }

end Sys2Proof.Machine
end

