-- ==== Sys2Proof/Machine/Step.lean ====
section
/-!
DEFINITION. One step of the block: one clock edge (70_reset_and_hazards.md R174), at which the input
ports are sampled and at most one of the steps of 10_state.md R19 happens.
-/

namespace Sys2Proof.Machine

/-- The `execute` step (R19, R44): the operation the command word selects, or ILLEGAL_OP for a reserved
word (R47). The host's offer at this edge stands (R176 (a)). -/
def execute (s : State) : Host.Outcome State Fault Refusal :=
  match decode s.command with
  | .ok i => exec i s.sampled
  | .error _ => s.sampled.takeIllegal

/-- One clock edge. A run in which the host breaks its handshake duty is refused (R176, U2); `rst` wins
over everything else (R170); otherwise the phase decides (R19). -/
def step (s : State) : Host.Outcome State Fault Refusal :=
  if s.dutyKept then
    if s.pins.rst then .next s.resetEdge
    else
      match s.phase with
      | .idle => .next s.idleEdge
      | .busy =>
        match s.latency with
        | 0 => execute s
        | n + 1 => .next (s.busyEdge n)
      | .done => .next s.doneEdge
  else .refused .hostBrokeHandshake

/-- The state in which a request with the command word `w` (its bits from `nbits` up being zero) is
latched and about to execute at the next edge: what offering the request, having it accepted and its
latency passing comes to. The operands stay as they are. Log entry 3. -/
def State.withFetchWord (s : State) (nbits w : Nat) : State :=
  { s with
    phase := .busy
    req := { s.req with cmd := BitVec.ofNat 32 (w % 2 ^ nbits) }
    latency := 0
    offer := none
    pins := { s.pins with rst := false } }

end Sys2Proof.Machine
end

