-- ==== Sys2Proof/Machine/Transaction.lean ====
section
/-!
DEFINITION. The block seen from the host's side of a transaction: `exec(REQ)` as a function of requests
(30_encoding.md R44), and runs over the levels a host drives (70_reset_and_hazards.md R174 to R178).
-/

namespace Sys2Proof.Machine

/-- The block about to execute `r`, nothing being driven on its ports. -/
def State.holding (r : Request) : State :=
  { State.reset with phase := .busy, req := r }

/-- The response part of what a step answers. -/
def responseOf : Result → Response
  | .next t => t.rsp
  | .fault _ => Response.zero
  | .refused _ => Response.zero

/-- `exec(REQ)` (R44): the response the `execute` step gives the request. -/
def respond (r : Request) : Response := responseOf (step (State.holding r))

/-- The state a run has reached, the requests it has accepted and the responses the host has taken, each
in order. -/
structure Run where
  state : State
  accepted : List Request
  taken : List Response
  deriving DecidableEq, Repr

/-- Whether the edge about to come accepts a request (R174). -/
def State.accepting (s : State) : Bool := s.reqReady && s.pins.reqValid

/-- Whether the edge about to come takes a response (R174). -/
def State.taking (s : State) : Bool := s.rspValid && s.pins.rspReady

/-- What a run has seen after one more edge, `t` being the state after it. -/
def Run.record (r : Run) (s t : State) : Run :=
  { state := t
    accepted := if s.accepting then r.accepted ++ [s.pins.req] else r.accepted
    taken := if s.taking then r.taken ++ [s.outputs.rsp] else r.taken }

/-- One clock edge of a run, at which the host drives `p`; nothing if the step is refused. -/
def Run.edge (p : PortIn) (r : Run) : Option Run :=
  match step (r.state.drive p) with
  | .next t => some (r.record (r.state.drive p) t)
  | .fault _ => none
  | .refused _ => none

/-- A run over the levels the host drives, one entry a clock edge. -/
def Run.edges : List PortIn → Run → Option Run
  | [], r => some r
  | p :: ps, r => (r.edge p).bind (Run.edges ps)

/-- A run that has seen nothing yet, from a state. -/
def Run.start (s : State) : Run := ⟨s, [], []⟩

end Sys2Proof.Machine
end

