-- ==== Sys2Proof/Machine/HostProcedures.lean ====
section
/-!
DEFINITION. The procedures a host runs around the block (47_host_procedures.md R130 to R139): PARSE,
POW, FACT and the shift-count clamp. They are not operations of the block (R5, R130); POW and FACT are
sequences of MUL transactions. The parameters 92_eei_decisions.md leaves open are arguments. Log entry 9.
-/

namespace Sys2Proof.Machine

/-- One MUL transaction (R92, R130): the response of the block. -/
def mulTransaction (x y : Int256) : Response := respond ⟨encode .mul, x, y⟩

/-- Whether a response reports OVERFLOW (R151). -/
def Response.reportsOverflow (r : Response) : Bool := decide (r.diag = Diag.overflow.code)

/-- The open parameters of PARSE (92_eei_decisions.md D25, D26, D27; 93_implementation_defined.md U6). -/
structure ParseParams where
  /-- `PARSE_WS` but for the space character, which it always contains (D25) -/
  moreWhitespace : List Byte
  /-- `PARSE_HEX_LOWER`: whether lowercase hex digits are accepted -/
  hexLower : Bool
  /-- `PARSE_PREFIX_BACKTRACK`: whether the `0` of a base prefix is read as a decimal digit when no
  digit of that base follows -/
  prefixBacktrack : Bool
  /-- `PARSE_OVF_SIGNAL`: whether input overflow is signalled; by default silent, which reproduces the
  source (R132, U6) -/
  overflowSignal : Bool := false
  deriving DecidableEq, Repr

/-- What PARSE gives its caller: the value, the malformed-input warning (R133), and the input-overflow
signal that R132 allows. -/
structure ParseResult where
  val : Int256
  malformed : Bool
  overflow : Bool
  deriving DecidableEq, Repr

/-- Whether a byte is in `PARSE_WS`: the space character is, whatever else is (R134 (a), D25). -/
def ParseParams.isSpace (p : ParseParams) (c : Byte) : Bool := c == 0x20 || p.moreWhitespace.contains c

/-- The text without its leading whitespace (R131). -/
def ParseParams.skip (p : ParseParams) (t : List Byte) : List Byte := t.dropWhile p.isSpace

/-- An optional sign: whether it is a minus, and the rest (R131). -/
def takeSign : List Byte → Bool × List Byte
  | [] => (false, [])
  | c :: cs => if c = 0x2B then (false, cs) else if c = 0x2D then (true, cs) else (false, c :: cs)

/-- An optional base prefix: the base, and the rest (R131). -/
def takePrefix : List Byte → Nat × List Byte
  | a :: b :: cs =>
    if a = 0x30 ∧ (b = 0x78 ∨ b = 0x58) then (16, cs)
    else if a = 0x30 ∧ (b = 0x62 ∨ b = 0x42) then (2, cs)
    else (10, a :: b :: cs)
  | t => (10, t)

/-- The digit of a base that a character stands for, if any (R131, R134 (b)). -/
def digitOf (hexLower : Bool) (base : Nat) (c : Byte) : Option Nat :=
  let n := c.toNat
  if 0x30 ≤ n ∧ n ≤ 0x39 then (if n - 0x30 < base then some (n - 0x30) else none)
  else if base = 16 ∧ 0x41 ≤ n ∧ n ≤ 0x46 then some (n - 0x41 + 10)
  else if base = 16 ∧ hexLower = true ∧ 0x61 ≤ n ∧ n ≤ 0x66 then some (n - 0x61 + 10)
  else none

/-- One limb of the accumulate step: the new limb and the carry out (R132). -/
def mulCarry (l : Limb) (base carry : Nat) : Limb × Nat :=
  (BitVec.ofNat 64 (l.toNat * base + carry), (l.toNat * base + carry) / 2 ^ 64)

/-- The accumulate step, magnitude × base + digit, least significant limb first: the new magnitude and
the final carry, which PARSE discards (R132). -/
def accumulate (mag : Mag) (base digit : Nat) : Mag × Nat :=
  let (l3, c3) := mulCarry (limb mag 3) base digit
  let (l2, c2) := mulCarry (limb mag 2) base c3
  let (l1, c1) := mulCarry (limb mag 1) base c2
  let (l0, c0) := mulCarry (limb mag 0) base c1
  (ofLimbs l0 l1 l2 l3, c0)

/-- The digit loop of R131: the magnitude, whether a carry was ever lost, and the rest of the text. -/
def parseDigits (hexLower : Bool) (base : Nat) : List Byte → Mag → Bool → Mag × Bool × List Byte
  | [], mag, lost => (mag, lost, [])
  | c :: cs, mag, lost =>
    match digitOf hexLower base c with
    | none => (mag, lost, c :: cs)
    | some d =>
      parseDigits hexLower base cs (accumulate mag base d).1 (lost || (accumulate mag base d).2 != 0)

/-- Whether the text begins with a digit of the base. -/
def startsWithDigit (hexLower : Bool) (base : Nat) (t : List Byte) : Bool :=
  match t with
  | [] => false
  | c :: _ => (digitOf hexLower base c).isSome

/-- The base prefix as PARSE takes it: with `PARSE_PREFIX_BACKTRACK` a prefix that no digit of its base
follows is left in the text, which is then decimal (D27). -/
def ParseParams.takeBase (p : ParseParams) (t : List Byte) : Nat × List Byte :=
  if p.prefixBacktrack && !startsWithDigit p.hexLower (takePrefix t).1 (takePrefix t).2 then (10, t)
  else takePrefix t

/-- `parse(text)` (R131 to R134). It never fails. -/
def parse (p : ParseParams) (text : List Byte) : ParseResult :=
  let signed := takeSign (p.skip text)
  let based := p.takeBase signed.2
  let read := parseDigits p.hexLower based.1 based.2 0 false
  { val := canon signed.1 read.1
    malformed := !(p.skip read.2.2).isEmpty
    overflow := p.overflowSignal && read.2.1 }

/-- Where POW's loop stands: the result so far, the running square, whether a MUL reported OVERFLOW, and
how many MUL transactions have run (R136). -/
structure PowState where
  res : Int256
  base : Int256
  overflow : Bool
  transactions : Nat
  deriving DecidableEq, Repr

/-- `res <- MUL res, b` (R136). -/
def PowState.multiply (p : PowState) : PowState :=
  let r := mulTransaction p.res p.base
  { p with res := r.val, overflow := p.overflow || r.reportsOverflow, transactions := p.transactions + 1 }

/-- `b <- MUL b, b` (R136). -/
def PowState.square (p : PowState) : PowState :=
  let r := mulTransaction p.base p.base
  { p with base := r.val, overflow := p.overflow || r.reportsOverflow, transactions := p.transactions + 1 }

/-- One turn of the loop for the exponent `e > 0` (R136): no squaring after the last bit. -/
def PowState.turn (e : Nat) (p : PowState) : PowState :=
  let q := if e % 2 = 1 then p.multiply else p
  if e / 2 > 0 then q.square else q

/-- The right-to-left binary method (R136), over at most `bits` bits of exponent. -/
def powLoop : Nat → Nat → PowState → PowState
  | 0, _, p => p
  | bits + 1, e, p => if e = 0 then p else powLoop bits (e / 2) (p.turn e)

/-- `pow(a, e)` for an exponent of `expWidth` bits, the open parameter `EXP_W` (R135, R136, D13). -/
def pow (expWidth : Nat) (a : Int256) (e : BitVec expWidth) : PowState :=
  powLoop expWidth e.toNat ⟨Int256.one, a, false, 0⟩

/-- What FACT gives its caller: the accumulator, the zero test's overflow report (R137), and the OVERFLOW
reports of its MUL steps that the host forwards (D30), each by the factor `i` of the step that made it, in
order. -/
structure FactResult where
  acc : Int256
  wrappedToZero : Bool
  mulOverflows : List Nat
  deriving DecidableEq, Repr

/-- What the host forwards of the MUL step with factor `i`: its OVERFLOW, if it reported one and
`FACT_MUL_DIAG` is set (R137, D30). -/
def forwarded (forwardMul : Bool) (i : Nat) (r : Response) : List Nat :=
  if forwardMul && r.reportsOverflow then [i] else []

/-- The product loop of R137: `n` factors still to come, the next being `i`; it ends early when the
accumulator becomes zero. `reports` are the MUL reports forwarded so far. -/
def factLoop (forwardMul : Bool) : Nat → Nat → Int256 → List Nat → FactResult
  | 0, _, acc, reports => ⟨acc, false, reports⟩
  | n + 1, i, acc, reports =>
    let r := mulTransaction acc ⟨false, BitVec.ofNat 256 i⟩
    let reports' := reports ++ forwarded forwardMul i r
    if r.val.mag = 0 then ⟨r.val, true, reports'⟩ else factLoop forwardMul n (i + 1) r.val reports'

/-- `factorial(n)` for an argument of `argWidth` bits, the open parameter `FACT_ARG_W` (R137, D13);
`forwardMul` is `FACT_MUL_DIAG` (D30). -/
def factorial (argWidth : Nat) (forwardMul : Bool) (n : BitVec argWidth) : FactResult :=
  factLoop forwardMul (n.toNat - 1) 2 Int256.one []

/-- The caller's clamp of a requested shift amount: the count and whether the caller warns (R139). -/
def clampShift (amount : Int) : Nat × Bool :=
  if amount < 0 ∨ amount > 255 then (255, true) else (amount.toNat, false)

end Sys2Proof.Machine
end

