-- ==== Sys2Proof/Machine/Transcript.lean ====
section
/-!
DEFINITION. The transcript notation for a transaction (30_encoding.md R49) and what its destination
variable receives. Host-side notation; nothing in the block depends on it.
-/

namespace Sys2Proof.Machine

/-- The mnemonic of an operation (R45). -/
def mnemonic : Instr → String
  | .iszero => "ISZERO"
  | .neg => "NEG"
  | .abs => "ABS"
  | .cmpmag => "CMPMAG"
  | .cmp => "CMP"
  | .fmthex => "FMTHEX"
  | .fmtdec => "FMTDEC"
  | .add => "ADD"
  | .sub => "SUB"
  | .mul => "MUL"
  | .div => "DIV"
  | .mod => "MOD"
  | .and => "AND"
  | .or => "OR"
  | .xor => "XOR"
  | .shl _ => "SHL"
  | .shr _ => "SHR"

/-- The name of a diagnostic code (R151). -/
def diagName (d : BitVec 2) : String :=
  if d = Diag.none.code then "NONE"
  else if d = Diag.overflow.code then "OVERFLOW"
  else if d = Diag.divZero.code then "DIV_ZERO"
  else "ILLEGAL_OP"

/-- A transaction on one line (R49); `dst`, `a` and `b` are names of host variables. -/
def transcript (i : Instr) (dst a b : String) (diag : BitVec 2) : String :=
  dst ++ " = " ++ mnemonic i ++ " " ++ a ++
    (if i.format = .B then ", " ++ b else "") ++
    (if i.format = .S then ", #" ++ toString i.count else "") ++
    " ; diag=" ++ diagName diag

/-- What the destination variable of a transcript line holds afterwards (R49). -/
inductive HostValue where
  | value (v : Int256)
  | ordering (o : Int)
  | flag (z : Bool)
  | text (t : List Byte)
  deriving DecidableEq, Repr

/-- The valid bytes of a response's text (R17, R32). -/
def Response.text (r : Response) : List Byte := r.txt.toList.take r.txtLen.toNat

/-- What the destination receives: the ordering as −1, 0 or +1 for the comparisons, the zero flag for
ISZERO, the text for the formatters, the value otherwise (R49). `ord` is the two's-complement code of the
ordering (D9). -/
def received (i : Instr) (r : Response) : HostValue :=
  match i with
  | .cmpmag | .cmp => .ordering r.ord.toInt
  | .iszero => .flag r.zf
  | .fmthex | .fmtdec => .text r.text
  | .neg | .abs | .add | .sub | .mul | .div | .mod | .and | .or | .xor | .shl _ | .shr _ => .value r.val

end Sys2Proof.Machine
end

