-- ==== Sys2Proof/Safety.lean ====
section
/-!
DEFINITION. The terms in which claims about the block are stated: integers as values, numerals as text,
responses as 10_state.md R13 and R17 shape them, states that hold what 70_reset_and_hazards.md R175
promises, and states a host cannot tell apart (10_state.md R23, R26).
-/

namespace Sys2Proof.Machine

/-- The canonical value nearest to an integer's low 256 bits: its sign, and its magnitude modulo 2²⁵⁶,
zero being positive (R8, R13, R14). For an integer that fits it is the value that denotes it. -/
def Int256.ofInt (v : Int) : Int256 := canon (decide (v < 0)) (BitVec.ofNat 256 v.natAbs)

/-- Whether an integer's magnitude fits 256 bits (R11). -/
def fits256 (v : Int) : Prop := v.natAbs < 2 ^ 256

/-- Canonical zero (R13). -/
def Int256.canonical (x : Int256) : Prop := x.mag = 0 → x.neg = false

/-- The ordering code of two integers (R17). -/
def ordBits (x y : Int) : BitVec 2 := if x = y then 0b00 else if y < x then 0b01 else 0b11

/-- The hex digits `0`..`9`, `a`..`f` as bytes (R70). -/
def hexChars : List Byte :=
  [0x30, 0x31, 0x32, 0x33, 0x34, 0x35, 0x36, 0x37, 0x38, 0x39, 0x61, 0x62, 0x63, 0x64, 0x65, 0x66]

/-- The hexadecimal numeral of a number, most significant digit first, no leading zeros (R71). -/
def hexNumeral (n : Nat) : List Byte :=
  if n = 0 then [0x30] else (Nat.digits 16 n).reverse.map fun d => hexChars.getD d 0

/-- The decimal numeral of a number, most significant digit first, no leading zeros (R72). -/
def decNumeral (n : Nat) : List Byte :=
  if n = 0 then [0x30] else (Nat.digits 10 n).reverse.map fun d => hexChars.getD d 0

/-- A response as R17 shapes it: a canonical value (R13), an ordering code that exists, a text length
within the buffer, and zero bytes after the text. -/
structure Response.WellShaped (r : Response) : Prop where
  canonical : r.val.canonical
  ordCode : r.ord ≠ 0b10
  length : r.txtLen.toNat ≤ 79
  padding : ∀ (i : Nat) (h : i < 79), r.txtLen.toNat ≤ i → r.txt[i] = 0

/-- While the response is valid it is `exec` of the latched request (R175). -/
def State.Inv (s : State) : Prop := s.phase = .done → s.rsp = respond s.req

/-- Two states that differ only in what R26 says no host can read: `REQ` outside `BUSY`, `RSP` outside
`DONE`, and the model's latency outside `BUSY`. -/
structure State.SameSeen (s t : State) : Prop where
  phase : s.phase = t.phase
  pins : s.pins = t.pins
  offer : s.offer = t.offer
  draws : s.draws = t.draws
  req : s.phase = .busy → s.req = t.req
  latency : s.phase = .busy → s.latency = t.latency
  rsp : s.phase = .done → s.rsp = t.rsp

/-- The host keeps duty (a) of R176 at the coming edge. -/
def State.HostHolds (s : State) : Prop :=
  ∀ r, s.offer = some r → s.pins.reqValid = true ∧ s.pins.req = r

end Sys2Proof.Machine
end

