-- ==== Sys2Proof/Certificates/Slice0/Obligations.lean ====
section
/-!
DEFINITION. The statements for the provers. The result statements give each operation's next state whole:
the record update shows that every other field is unchanged, and the block has no registers, flags or
memory besides (10_state.md R20, R22; 20_memory.md R30). Where a statement names `respond`, it is R44's
`exec(REQ)` computed by `step`.
-/

open Sys2Proof Sys2Proof.Machine

/-! ### Command words -/

/-- R45: command words written out from the opcode map decode to their operations, and one reserved word
of each kind of R47 to none. -/
def Obligations.DecodeOfWrittenWords : Prop :=
  decode 0x00000001 = .ok .iszero ∧ decode 0x00000006 = .ok .fmthex ∧ decode 0x00000008 = .ok .add ∧
  decode 0x0000000A = .ok .mul ∧ decode 0x0000000C = .ok .mod ∧ decode 0x0000000F = .ok .xor ∧
  decode 0x00FF0010 = .ok (.shl 255) ∧ decode 0xFFFF0011 = .ok (.shr 65535) ∧
  decode 0x00000108 = .error .reservedByte ∧ decode 0x00000012 = .error .unknownOpcode ∧
  decode 0x00010008 = .error .strayCount

/-- R40, R45, R46: every well-formed operation, with its count at every value the word admits, survives
encoding and decoding. -/
def Obligations.DecodeOfEncode : Prop :=
  ∀ i : Instr, i.wellFormed = true → decode (encode i) = .ok i

/-- R45, R47: a word that decodes is the word of the operation it decodes to, and that operation is well
formed. -/
def Obligations.EncodeOfDecode : Prop :=
  ∀ (w : CmdWord) (i : Instr), decode w = .ok i → encode i = w ∧ i.wellFormed = true

/-- R47: which words are reserved; and a request with one completes with ILLEGAL_OP, every other response
field zero, the operands not examined. The premise on `latency` and the clause on `offer` are about the
model's own fields (log entries 2, 4). -/
def Obligations.ReservedWordsCompleteAsIllegal : Prop :=
  (∀ w : CmdWord, (∃ e, decode w = .error e) ↔
    (w.toNat / 2 ^ 8 % 2 ^ 8 ≠ 0 ∨ w.toNat % 2 ^ 8 = 0 ∨ 0x12 ≤ w.toNat % 2 ^ 8 ∨
      (w.toNat % 2 ^ 8 ≠ 0x10 ∧ w.toNat % 2 ^ 8 ≠ 0x11 ∧ w.toNat / 2 ^ 16 ≠ 0))) ∧
  (∀ (s : State) (e : Reserved), s.phase = .busy → s.latency = 0 → s.pins.rst = false → s.HostHolds →
    decode s.req.cmd = .error e →
    step s = .next { s with
      phase := .done
      rsp := { Response.zero with diag := 0b11 }
      offer := if s.pins.reqValid then some s.pins.req else none })

/-! ### Clock edges -/

/-- R19, R44: when the latched command word decodes to an operation and its latency has passed, the step is
that operation's meaning; the step adds only that the host's offer stands, in a field of the model's own (log
entry 4); so is the `latency` of the premise (log entry 2). -/
def Obligations.StepRunsDecodedOperation : Prop :=
  ∀ (s : State) (i : Instr), s.phase = .busy → s.latency = 0 → s.pins.rst = false → s.HostHolds →
    decode s.req.cmd = .ok i →
    step s = exec i { s with offer := if s.pins.reqValid then some s.pins.req else none }

/-- R19, R174: at an edge where `req_valid` and `req_ready` are both 1 the offered request is latched and
`BUSY` follows; the last three fields are the model's own (log entries 2, 4, 7). -/
def Obligations.AcceptLatchesOfferedRequest : Prop :=
  ∀ s : State, s.HostHolds → s.reqReady = true → s.pins.reqValid = true →
    s.phase = .idle ∧
    step s = .next { s with
      phase := .busy
      req := s.pins.req
      offer := none
      latency := Config.latency s.draws s.pins.req
      draws := s.draws + 1 }

/-- R19, R33, R174: at an edge where `rsp_valid` and `rsp_ready` are both 1 the response is taken: `IDLE`
follows, and that is the one side effect; `offer` and `draws` are the model's own (log entries 4, 7). -/
def Obligations.TakeReturnsToIdle : Prop :=
  ∀ s : State, s.HostHolds → s.rspValid = true → s.pins.rspReady = true →
    s.phase = .done ∧
    step s = .next { s with
      phase := .idle
      offer := if s.pins.reqValid then some s.pins.req else none
      draws := s.draws + 1 }

/-- R159, R174, R176 (c), R180: at an edge where no step of R19 is enabled the block waits: in `IDLE` with
no request offered, in `BUSY` before the edge that executes, in `DONE` until the response is taken. `offer` and `latency` are
the model's own (log entries 2, 4). -/
def Obligations.OtherEdgesWait : Prop :=
  ∀ s : State, s.HostHolds → s.pins.rst = false →
    ((s.phase = .idle ∧ s.pins.reqValid = false) ∨ (s.phase = .busy ∧ s.latency ≠ 0) ∨
      (s.phase = .done ∧ s.pins.rspReady = false)) →
    ∃ t, step s = .next t ∧ t.phase = s.phase ∧ t.req = s.req ∧ t.rsp = s.rsp ∧ t.pins = s.pins ∧
      t.offer = (if s.pins.reqValid then some s.pins.req else none) ∧
      t.latency = (if s.phase = .busy then s.latency - 1 else s.latency)

/-- R170: while `rst` is asserted no request is accepted and no response is presented, and `IDLE` follows,
whatever the phase was. That the two outputs are 0 while the phase still stands is the model's reading (log
entry 6), and that an offer made under `rst` stands, so that the duty of R176 (a) binds on, is the model's
reading too (log entry 4). -/
def Obligations.ResetInputAbandonsTransaction : Prop :=
  ∀ s : State, s.pins.rst = true →
    s.reqReady = false ∧ s.rspValid = false ∧
    (s.HostHolds → ∃ t, step s = .next t ∧ t.phase = .idle ∧ t.pins = s.pins ∧
      t.offer = if s.pins.reqValid then some s.pins.req else none)

/-- R26, R170, R174: the state after reset is `IDLE`, ready for a request and presenting no response. That
`rst` is low there is the model's choice (log entry 3). -/
def Obligations.ResetStateIsIdle : Prop :=
  State.reset.phase = .idle ∧ State.reset.outputs.reqReady = true ∧
  State.reset.outputs.rspValid = false

/-- R157, R177: a step never faults; it has a next state whenever the host keeps its duty, and is refused
exactly when the host broke it (U2, log entry 4). -/
def Obligations.OnlyBrokenHandshakeStops : Prop :=
  ∀ s : State, (s.HostHolds → ∃ t, step s = .next t) ∧
    (¬ s.HostHolds → step s = .refused .hostBrokeHandshake)

/-- R174, R175: with `rst` low, the output ports follow the phase, and carry `RSP` while it is valid. -/
def Obligations.OutputPortsFollowPhase : Prop :=
  ∀ s : State, s.pins.rst = false →
    (s.outputs.reqReady = true ↔ s.phase = .idle) ∧ (s.outputs.rspValid = true ↔ s.phase = .done) ∧
    (s.phase = .done → s.outputs.rsp = s.rsp)

/-- R175, R178: a valid response stays on the outputs, unchanged, until it is taken. -/
def Obligations.ValidResponseIsHeld : Prop :=
  ∀ (s : State) (p : PortIn), s.HostHolds → s.rspValid = true → s.pins.rspReady = false → p.rst = false →
    ∃ t, step s = .next t ∧ (t.drive p).outputs = s.outputs

/-! ### Invariants and runs -/

/-- R175: every step keeps "a valid response is `exec` of the latched request". -/
def Obligations.StepKeepsResponseOfRequest : Prop :=
  ∀ s t : State, s.Inv → step s = .next t → t.Inv

/-- R26, R175: the state after reset has that invariant. -/
def Obligations.ResetHasResponseOfRequest : Prop := State.reset.Inv

/-- R13, R17, R43: every request has a response in the shape R17 gives: a canonical value, an existing
ordering code, a text within its buffer and zeros after it. -/
def Obligations.EveryResponseIsWellShaped : Prop := ∀ r : Request, (respond r).WellShaped

/-- R22, R23: what an operation answers depends on the latched request alone, and it changes nothing but
the phase and the response. -/
def Obligations.OperationReadsRequestOnly : Prop :=
  ∀ (i : Instr) (s t : State), s.req = t.req →
    ∃ r, exec i s = .next { s with phase := .done, rsp := r } ∧
      exec i t = .next { t with phase := .done, rsp := r }

/-- R15: a request with negative zero in an operand behaves exactly as the same request with canonical zero
there. -/
def Obligations.NegativeZeroIsReadAsZero : Prop :=
  ∀ r : Request,
    respond r = respond { r with
      a := if r.a.mag = 0 then ⟨false, 0⟩ else r.a
      b := if r.b.mag = 0 then ⟨false, 0⟩ else r.b }

/-- R42: formats U and S do not read operand `B`. -/
def Obligations.UnreadOperandHasNoEffect : Prop :=
  ∀ (i : Instr) (a b b' : Int256), i.wellFormed = true → i.format ≠ .B →
    respond ⟨encode i, a, b⟩ = respond ⟨encode i, a, b'⟩

/-- R23, R26: two states that differ only in unreadable fields show the same handshake outputs and, while
it is valid (R175), the same response, and a step takes them to two such states again (or refuses both).
That the time in `BUSY` does not depend on what `REQ` and `RSP` held before is the model's choice (log entry
2). -/
def Obligations.UnreadableFieldsStayUnseen : Prop :=
  ∀ s t : State, s.SameSeen t →
    (s.outputs.reqReady = t.outputs.reqReady ∧ s.outputs.rspValid = t.outputs.rspValid ∧
      (s.outputs.rspValid = true → s.outputs.rsp = t.outputs.rsp)) ∧
    (∀ s', step s = .next s' → ∃ t', step t = .next t' ∧ s'.SameSeen t') ∧
    (∀ e, step s = .refused e → step t = .refused e)

/-- R26: whatever `REQ` and `RSP` hold after reset, a host that drives the same levels sees the same
requests accepted and takes the same responses. No claim can rest on the values log entry 1 names.
That the time in `BUSY` does not depend on them is the model's choice (log entry 2). -/
def Obligations.ResetContentsAreNeverSeen : Prop :=
  ∀ (q : Request) (p : Response) (ins : List PortIn),
    (Run.edges ins (Run.start { State.reset with req := q, rsp := p })).map (fun r => (r.accepted, r.taken)) =
      (Run.edges ins (Run.start State.reset)).map (fun r => (r.accepted, r.taken))

/-- R35, R178: without `rst`, the responses taken are `exec` of the requests accepted, one for one and in
order, at most one request being outstanding. -/
def Obligations.ResponsesComeInRequestOrder : Prop :=
  ∀ (s : State) (ins : List PortIn) (r : Run), s.phase = .idle → (∀ p ∈ ins, p.rst = false) →
    Run.edges ins (Run.start s) = some r →
    r.accepted.map respond = r.taken ++ (if r.state.phase = .idle then [] else [respond r.state.req])

/-- R170, R177: with `rst` asserted at any edges of the host's choosing, resets only abandon: every response
taken is still `exec` of an accepted request, in order. -/
def Obligations.ResetsOnlyAbandonResponses : Prop :=
  ∀ (s : State) (ins : List PortIn) (r : Run), s.phase = .idle →
    Run.edges ins (Run.start s) = some r → r.taken.Sublist (r.accepted.map respond)

/-- R178, R180: an offered request is accepted and answered by `exec` of it after a finite time, the host
keeping its levels. The time is the free value of log entry 2. -/
def Obligations.OfferedRequestIsAnswered : Prop :=
  ∀ s : State, s.phase = .idle → s.pins.rst = false → s.pins.reqValid = true → s.HostHolds →
    ∃ t, core.run (Config.latency s.draws s.pins.req + 2) s = .next t ∧ t.phase = .done ∧
      t.req = s.pins.req ∧ t.rsp = respond s.pins.req

/-! ### Results of the operations -/

/-- R60: `zf` is 1 exactly when the magnitude is zero, and every other response field is zero. -/
def Obligations.IszeroTestsMagnitude : Prop :=
  decode 0x00000001 = .ok .iszero ∧
  ∀ s : State, exec .iszero s = .next { s with
    phase := .done
    rsp := { Response.zero with zf := decide (s.req.a.mag = 0) } }

/-- R61: with `A` read through `canon` (R15). -/
def Obligations.NegFlipsSignUnlessZero : Prop :=
  decode 0x00000002 = .ok .neg ∧
  ∀ s : State, exec .neg s = .next { s with
    phase := .done
    rsp := { Response.zero with
      val := if s.req.a.mag = 0 then ⟨false, 0⟩ else ⟨!s.req.a.neg, s.req.a.mag⟩ } }

/-- R62: the magnitude with a positive sign. -/
def Obligations.AbsForcesPositive : Prop :=
  decode 0x00000003 = .ok .abs ∧
  ∀ s : State, exec .abs s = .next { s with
    phase := .done
    rsp := { Response.zero with val := ⟨false, s.req.a.mag⟩ } }

/-- R63: the ordering of the magnitudes as integers, the signs ignored. -/
def Obligations.CmpmagOrdersMagnitudes : Prop :=
  decode 0x00000004 = .ok .cmpmag ∧
  ∀ s : State, exec .cmpmag s = .next { s with
    phase := .done
    rsp := { Response.zero with ord := ordBits s.req.a.mag.toNat s.req.b.mag.toNat } }

/-- R64: the ordering of the values as integers; negative zero on a port counts as zero (R15). -/
def Obligations.CmpOrdersValues : Prop :=
  decode 0x00000005 = .ok .cmp ∧
  ∀ s : State, exec .cmp s = .next { s with
    phase := .done
    rsp := { Response.zero with ord := ordBits s.req.a.toInt s.req.b.toInt } }

/-- R71: the text is the sign, `0x` and the hexadecimal numeral of the magnitude, in the byte values
R70 takes from general knowledge (93_implementation_defined.md G1). -/
def Obligations.FmthexWritesHexNumeral : Prop :=
  decode 0x00000006 = .ok .fmthex ∧
  ∀ s : State, ∃ t : List Byte, ∃ r : Response,
    t = (if s.req.a.neg = true ∧ s.req.a.mag ≠ 0 then [0x2D] else []) ++ [0x30, 0x78] ++
      hexNumeral s.req.a.mag.toNat ∧
    t.length ≤ 67 ∧ r.txtLen.toNat = t.length ∧ (∀ (i : Nat) (h : i < 79), r.txt[i] = t.getD i 0) ∧
    exec .fmthex s = .next { s with
      phase := .done
      rsp := { Response.zero with txtLen := r.txtLen, txt := r.txt } }

/-- R72: the text is the sign and the decimal numeral of the magnitude, in the byte values R70 takes from
general knowledge (93_implementation_defined.md G1). -/
def Obligations.FmtdecWritesDecimalNumeral : Prop :=
  decode 0x00000007 = .ok .fmtdec ∧
  ∀ s : State, ∃ t : List Byte, ∃ r : Response,
    t = (if s.req.a.neg = true ∧ s.req.a.mag ≠ 0 then [0x2D] else []) ++
      decNumeral s.req.a.mag.toNat ∧
    t.length ≤ 79 ∧ r.txtLen.toNat = t.length ∧ (∀ (i : Nat) (h : i < 79), r.txt[i] = t.getD i 0) ∧
    exec .fmtdec s = .next { s with
      phase := .done
      rsp := { Response.zero with txtLen := r.txtLen, txt := r.txt } }

/-- R82: the low 256 bits of the exact sum, with its sign, and OVERFLOW exactly when it does not fit. -/
def Obligations.AddIsExactSumOrOverflow : Prop :=
  decode 0x00000008 = .ok .add ∧
  ∀ s : State, exec .add s = .next { s with
    phase := .done
    rsp := { Response.zero with
      val := Int256.ofInt (s.req.a.toInt + s.req.b.toInt)
      diag := if (s.req.a.toInt + s.req.b.toInt).natAbs < 2 ^ 256 then 0b00 else 0b01 } }

/-- R83: likewise the exact difference. -/
def Obligations.SubIsExactDifferenceOrOverflow : Prop :=
  decode 0x00000009 = .ok .sub ∧
  ∀ s : State, exec .sub s = .next { s with
    phase := .done
    rsp := { Response.zero with
      val := Int256.ofInt (s.req.a.toInt - s.req.b.toInt)
      diag := if (s.req.a.toInt - s.req.b.toInt).natAbs < 2 ^ 256 then 0b00 else 0b01 } }

/-- R92: the low 256 bits of the exact product, with its sign, and OVERFLOW exactly when it does not fit. -/
def Obligations.MulIsExactProductOrOverflow : Prop :=
  decode 0x0000000A = .ok .mul ∧
  ∀ s : State, exec .mul s = .next { s with
    phase := .done
    rsp := { Response.zero with
      val := Int256.ofInt (s.req.a.toInt * s.req.b.toInt)
      diag := if s.req.a.mag.toNat * s.req.b.mag.toNat < 2 ^ 256 then 0b00 else 0b01 } }

/-- R102: the quotient truncated toward zero; DIV_ZERO and `ZERO` for a zero divisor. -/
def Obligations.DivTruncatesTowardZero : Prop :=
  decode 0x0000000B = .ok .div ∧
  ∀ s : State, exec .div s = .next { s with
    phase := .done
    rsp := if s.req.b.mag = 0 then { Response.zero with diag := 0b10 }
      else { Response.zero with val := Int256.ofInt (s.req.a.toInt.tdiv s.req.b.toInt) } }

/-- R103: the remainder with the dividend's sign; DIV_ZERO and `ZERO` for a zero divisor. -/
def Obligations.ModTakesDividendSign : Prop :=
  decode 0x0000000C = .ok .mod ∧
  ∀ s : State, exec .mod s = .next { s with
    phase := .done
    rsp := if s.req.b.mag = 0 then { Response.zero with diag := 0b10 }
      else { Response.zero with val := Int256.ofInt (s.req.a.toInt.tmod s.req.b.toInt) } }

/-- R112, with the operands read through `canon` (R15). -/
def Obligations.AndCombinesMagnitudesAndSigns : Prop :=
  decode 0x0000000D = .ok .and ∧
  ∀ s : State, exec .and s = .next { s with
    phase := .done
    rsp := { Response.zero with
      val := canon ((canon s.req.a.neg s.req.a.mag).neg && (canon s.req.b.neg s.req.b.mag).neg)
        (s.req.a.mag &&& s.req.b.mag) } }

/-- R113, with the operands read through `canon` (R15). -/
def Obligations.OrCombinesMagnitudesAndSigns : Prop :=
  decode 0x0000000E = .ok .or ∧
  ∀ s : State, exec .or s = .next { s with
    phase := .done
    rsp := { Response.zero with
      val := canon ((canon s.req.a.neg s.req.a.mag).neg || (canon s.req.b.neg s.req.b.mag).neg)
        (s.req.a.mag ||| s.req.b.mag) } }

/-- R114, with the operands read through `canon` (R15). -/
def Obligations.XorCombinesMagnitudesAndSigns : Prop :=
  decode 0x0000000F = .ok .xor ∧
  ∀ s : State, exec .xor s = .next { s with
    phase := .done
    rsp := { Response.zero with
      val := canon ((canon s.req.a.neg s.req.a.mag).neg ^^ (canon s.req.b.neg s.req.b.mag).neg)
        (s.req.a.mag ^^^ s.req.b.mag) } }

/-- R122: the magnitude times 2^n modulo 2²⁵⁶, zero for `n ≥ 256`; the sign is carried through unless the
magnitude is zero; always NONE. -/
def Obligations.ShlMultipliesMagnitude : Prop :=
  (∀ n, n < 2 ^ 16 → decode (BitVec.ofNat 32 (n * 2 ^ 16 + 0x10)) = .ok (.shl n)) ∧
  ∀ (n : Nat) (s : State), exec (.shl n) s = .next { s with
    phase := .done
    rsp := { Response.zero with
      val := canon s.req.a.neg
        (if n ≥ 256 then 0 else BitVec.ofNat 256 (s.req.a.mag.toNat * 2 ^ n)) } }

/-- R123: the magnitude divided by 2^n, zero for `n ≥ 256`; the sign is carried through unless the
magnitude is zero; always NONE. -/
def Obligations.ShrDividesMagnitude : Prop :=
  (∀ n, n < 2 ^ 16 → decode (BitVec.ofNat 32 (n * 2 ^ 16 + 0x11)) = .ok (.shr n)) ∧
  ∀ (n : Nat) (s : State), exec (.shr n) s = .next { s with
    phase := .done
    rsp := { Response.zero with
      val := canon s.req.a.neg
        (if n ≥ 256 then 0 else BitVec.ofNat 256 (s.req.a.mag.toNat / 2 ^ n)) } }

/-! ### The units against their arithmetic -/

/-- R80: the carry chain is addition. -/
def Obligations.CarryChainAdds : Prop :=
  ∀ x y : Mag, (addmag x y).1.toNat = (x.toNat + y.toNat) % 2 ^ 256 ∧
    (addmag x y).2.toNat = (x.toNat + y.toNat) / 2 ^ 256

/-- R81: the borrow chain is subtraction where `x ≥ y`. -/
def Obligations.BorrowChainSubtracts : Prop :=
  ∀ x y : Mag, y.toNat ≤ x.toNat → (submag x y).toNat = x.toNat - y.toNat

/-- R91: the product buffer, read as a 512-bit number, is the exact product. -/
def Obligations.ProductBufferIsExact : Prop :=
  ∀ x y : Mag, (mulmag x y).length = 8 ∧
    (mulmag x y).foldl (fun n l => n * 2 ^ 64 + l.toNat) 0 = x.toNat * y.toNat

/-- R100: the restoring division is division with remainder. -/
def Obligations.LongDivisionDivides : Prop :=
  ∀ x y : Mag, y ≠ 0 →
    (udivrem x y).1.toNat = x.toNat / y.toNat ∧ (udivrem x y).2.toNat = x.toNat % y.toNat

/-- R104: with the running remainder the loop has before iteration `k`, the shift loses no bit. -/
def Obligations.RunningRemainderFits : Prop :=
  ∀ (x y r : Mag) (k : Nat), y ≠ 0 → k < 256 → r.toNat = x.toNat / 2 ^ (k + 1) % y.toNat →
    (shiftIn x k r).toNat = r.toNat * 2 + x.toNat / 2 ^ k % 2

/-- R121: the limb decomposition shifts. -/
def Obligations.LimbShiftsShift : Prop :=
  ∀ (m : Mag) (n : Nat), n ≤ 255 →
    (shlmag m n).toNat = m.toNat * 2 ^ n % 2 ^ 256 ∧ (shrmag m n).toNat = m.toNat / 2 ^ n

/-- R72, R73: the chunks are the base-10⁹ digits of the magnitude, none too large, the leading one not
zero. -/
def Obligations.ChunksAreBaseBillionDigits : Prop :=
  ∀ m : Mag, (chunks m).foldl (fun n c => n * 1000000000 + c) 0 = m.toNat ∧
    (∀ c ∈ chunks m, c < 1000000000) ∧ (chunks m).head? ≠ some 0 ∧ (chunks m).length ≤ 9

/-! ### Properties across transactions -/

/-- R103 (e): the division identity, through the block, with no diagnostic. -/
def Obligations.DivisionIdentity : Prop :=
  ∀ a b : Int256, b.mag ≠ 0 →
    let q := respond ⟨encode .div, a, b⟩
    let m := respond ⟨encode .mod, a, b⟩
    let p := respond ⟨encode .mul, q.val, b⟩
    let r := respond ⟨encode .add, p.val, m.val⟩
    r.val = canon a.neg a.mag ∧ p.diag = 0b00 ∧ r.diag = 0b00

/-- R82 (f), R84, R92 (d): ADD and MUL are commutative in value and diagnostic, and SUB is ADD of the
negation. -/
def Obligations.AddMulCommuteAndSubNegates : Prop :=
  ∀ a b : Int256,
    respond ⟨encode .add, a, b⟩ = respond ⟨encode .add, b, a⟩ ∧
    respond ⟨encode .mul, a, b⟩ = respond ⟨encode .mul, b, a⟩ ∧
    respond ⟨encode .sub, a, b⟩ = respond ⟨encode .add, a, (respond ⟨encode .neg, b, b⟩).val⟩

/-- R124: a right shift undone by a left shift clears the low `n` bits of the magnitude; the reverse
clears the high ones. -/
def Obligations.ShiftsBackAndForthMask : Prop :=
  ∀ (a b : Int256) (n : Nat), n ≤ 255 →
    (respond ⟨encode (.shl n), (respond ⟨encode (.shr n), a, b⟩).val, b⟩).val =
      canon a.neg (BitVec.ofNat 256 (a.mag.toNat - a.mag.toNat % 2 ^ n)) ∧
    (respond ⟨encode (.shr n), (respond ⟨encode (.shl n), a, b⟩).val, b⟩).val =
      canon a.neg (BitVec.ofNat 256 (a.mag.toNat % 2 ^ (256 - n)))

/-- R152, R154: which operation reports which diagnostic, and exactly when, in terms of the canonicalised
operands. -/
def Obligations.DiagnosticsExactly : Prop :=
  ∀ (i : Instr) (s t : State), exec i s = .next t →
    t.rsp.diag =
      match i with
      | .add => if s.opA.neg = s.opB.neg ∧ s.opA.mag.toNat + s.opB.mag.toNat ≥ 2 ^ 256 then 0b01 else 0b00
      | .sub => if s.opA.neg ≠ s.opB.neg ∧ s.opA.mag.toNat + s.opB.mag.toNat ≥ 2 ^ 256 then 0b01 else 0b00
      | .mul => if s.opA.mag.toNat * s.opB.mag.toNat ≥ 2 ^ 256 then 0b01 else 0b00
      | .div => if s.opB.mag = 0 then 0b10 else 0b00
      | .mod => if s.opB.mag = 0 then 0b10 else 0b00
      | _ => 0b00

/-- R49: the destination of CMP receives the sign of the difference of the values. -/
def Obligations.CmpReceivesSign : Prop :=
  ∀ a b : Int256, received .cmp (respond ⟨encode .cmp, a, b⟩) = .ordering (a.toInt - b.toInt).sign

/-! ### Host procedures -/

/-- R74: PARSE of what FMTDEC writes is the value, with no warning, for every choice of the open parameters
in which no character of a numeral is whitespace. How the model reads the backtrack and overflow-signal
parameters is log entry 9. -/
def Obligations.ParseUndoesFmtdec : Prop :=
  ∀ (p : ParseParams) (a b : Int256),
    (∀ c ∈ p.moreWhitespace, c ≠ 0x2D ∧ ¬ (0x30 ≤ c.toNat ∧ c.toNat ≤ 0x39)) →
    parse p (respond ⟨encode .fmtdec, a, b⟩).text = ⟨canon a.neg a.mag, false, false⟩

/-- R132: one accumulate step, and the carry it discards. -/
def Obligations.AccumulateMultipliesAndAdds : Prop :=
  ∀ (m : Mag) (base d : Nat), d < base → base ≤ 16 →
    (accumulate m base d).1.toNat = (m.toNat * base + d) % 2 ^ 256 ∧
    (accumulate m base d).2 = (m.toNat * base + d) / 2 ^ 256

/-- R131, R132: PARSE of a string of decimal digits denoting `N` gives `N` modulo 2²⁵⁶, silently unless
`PARSE_OVF_SIGNAL` asks for a signal (log entry 9). -/
def Obligations.ParseTruncatesDecimalInput : Prop :=
  ∀ (p : ParseParams) (ds : List Nat), (∀ d ∈ ds, d < 10) →
    (∀ c ∈ p.moreWhitespace, ¬ (0x30 ≤ c.toNat ∧ c.toNat ≤ 0x39)) →
    parse p (ds.map decDigit) =
      ⟨⟨false, BitVec.ofNat 256 (Nat.ofDigits 10 ds.reverse)⟩, false,
        p.overflowSignal && decide (2 ^ 256 ≤ Nat.ofDigits 10 ds.reverse)⟩

/-- R135: the value of POW. -/
def Obligations.PowIsPowerModulo : Prop :=
  ∀ (w : Nat) (a : Int256) (e : BitVec w),
    (pow w a e).res.mag.toNat = a.mag.toNat ^ e.toNat % 2 ^ 256 ∧
    ((pow w a e).res.neg = true ↔
      a.neg = true ∧ e.toNat % 2 = 1 ∧ a.mag.toNat ^ e.toNat % 2 ^ 256 ≠ 0)

/-- R137, R138: the three ranges of FACT. The host forwards the OVERFLOW of each MUL step, or none (D30, log
entry 9): the first is that of the factor 58, and a later factor reports one exactly when its product with
the truncated accumulator before it needs more than 256 bits (R92, log entry 13). -/
def Obligations.FactorialRanges : Prop :=
  ∀ (w : Nat) (fwd : Bool) (n : BitVec w),
    (n.toNat ≤ 57 → factorial w fwd n = ⟨⟨false, BitVec.ofNat 256 n.toNat.factorial⟩, false, []⟩ ∧
      n.toNat.factorial < 2 ^ 256) ∧
    (58 ≤ n.toNat → n.toNat ≤ 257 →
      factorial w fwd n = ⟨⟨false, BitVec.ofNat 256 n.toNat.factorial⟩, false,
        if fwd then (List.range' 58 (n.toNat - 57)).filter fun i => 2 ^ 256 ≤ (i - 1).factorial % 2 ^ 256 * i
        else []⟩ ∧
      n.toNat.factorial % 2 ^ 256 ≠ 0) ∧
    (258 ≤ n.toNat → factorial w fwd n = ⟨⟨false, 0⟩, true,
      if fwd then (List.range' 58 201).filter fun i => 2 ^ 256 ≤ (i - 1).factorial % 2 ^ 256 * i else []⟩) ∧
    (58 ≤ n.toNat → fwd = true → (factorial w fwd n).mulOverflows.head? = some 58)

/-- R139: the caller's clamp; a negative request becomes 255. -/
def Obligations.ClampShiftRange : Prop :=
  ∀ a : Int, (0 ≤ a → a ≤ 255 → clampShift a = (a.toNat, false)) ∧
    (a < 0 ∨ 255 < a → clampShift a = (255, true))
end

