-- ==== Sys2Proof/Laws/Ops.lean ====
section
/-!
SUPPORT. One lemma per shared operation: canonicalisation, limbs, the limb primitives of 00_scope.md R9
and the text buffer.
-/

namespace Sys2Proof.Machine

/-! ### canon -/

@[simp] theorem canon_mag (n : Bool) (m : Mag) : (canon n m).mag = m := by
  unfold canon; split <;> simp_all

theorem canon_neg (n : Bool) (m : Mag) : (canon n m).neg = (n && decide (m ≠ 0)) := by
  unfold canon; split <;> simp_all

@[simp] theorem canon_zero (n : Bool) : canon n 0 = ⟨false, 0⟩ := rfl

theorem canon_canonical (n : Bool) (m : Mag) : (canon n m).canonical := by
  intro h; simp_all [canon_neg]

@[simp] theorem canon_canon (n : Bool) (m : Mag) : canon (canon n m).neg (canon n m).mag = canon n m := by
  by_cases h : m = 0#256 <;> simp [canon, h]

theorem Int256.canonical.canon_self {x : Int256} (h : x.canonical) : canon x.neg x.mag = x := by
  unfold canon; split
  · next hm => cases x; simp_all [Int256.canonical]
  · rfl

theorem canon_toInt (x : Int256) : (canon x.neg x.mag).toInt = x.toInt := by
  by_cases h : x.mag = 0#256 <;> simp [canon, Int256.toInt, h]

/-! ### operands -/

@[simp] theorem State.opA_mag (s : State) : s.opA.mag = s.req.a.mag := canon_mag _ _

@[simp] theorem State.opB_mag (s : State) : s.opB.mag = s.req.b.mag := canon_mag _ _

theorem State.opA_canonical (s : State) : s.opA.canonical := canon_canonical _ _

theorem State.opB_canonical (s : State) : s.opB.canonical := canon_canonical _ _

theorem State.opA_toInt (s : State) : s.opA.toInt = s.req.a.toInt := canon_toInt _

theorem State.opB_toInt (s : State) : s.opB.toInt = s.req.b.toInt := canon_toInt _

/-! ### limbs -/

theorem limb_toNat (m : Mag) (i : Nat) : (limb m i).toNat = m.toNat / 2 ^ (192 - 64 * i) % 2 ^ 64 := by
  simp [limb, Nat.shiftRight_eq_div_pow]

theorem ofLimbs_toNat (a b c d : Limb) :
    (ofLimbs a b c d).toNat = ((a.toNat * 2 ^ 64 + b.toNat) * 2 ^ 64 + c.toNat) * 2 ^ 64 + d.toNat := by
  have append {n : Nat} (x : BitVec n) (y : Limb) : (x ++ y).toNat = x.toNat * 2 ^ 64 + y.toNat := by
    rw [BitVec.toNat_append, ← Nat.shiftLeft_add_eq_or_of_lt y.isLt, Nat.shiftLeft_eq]
  show (a ++ b ++ c ++ d).toNat = _
  rw [append, append, append]

/-- A magnitude is its limbs by their weights (R8, R11). -/
theorem toNat_limbs (m : Mag) :
    m.toNat = (((limb m 0).toNat * 2 ^ 64 + (limb m 1).toNat) * 2 ^ 64 + (limb m 2).toNat) * 2 ^ 64 +
      (limb m 3).toNat := by
  have := m.isLt
  simp only [limb_toNat]; omega

theorem ofLimbs_limb (m : Mag) : ofLimbs (limb m 0) (limb m 1) (limb m 2) (limb m 3) = m := by
  apply BitVec.eq_of_toNat_eq
  rw [ofLimbs_toNat, ← toNat_limbs]

/-! ### limb primitives (R9) -/

theorem adc64_spec (x y : Limb) (c : Bool) :
    (adc64 x y c).1.toNat + (adc64 x y c).2.toNat * 2 ^ 64 = x.toNat + y.toNat + c.toNat := by
  have := x.isLt
  have := y.isLt
  have hc : c.toNat ≤ 1 := Bool.toNat_le c
  by_cases h : (x.toNat + y.toNat + c.toNat) / 2 ^ 64 = 1 <;>
    simp only [adc64, h, BitVec.toNat_ofNat, decide_true, decide_false, Bool.toNat_true,
      Bool.toNat_false] <;> omega

theorem sbb64_spec (x y : Limb) (b : Bool) :
    ((sbb64 x y b).1.toNat : Int) - (sbb64 x y b).2.toNat * 2 ^ 64 =
      (x.toNat : Int) - y.toNat - b.toNat := by
  have := x.isLt
  have := y.isLt
  have hb : b.toNat ≤ 1 := Bool.toNat_le b
  by_cases h : (x.toNat : Int) - y.toNat - b.toNat < 0 <;>
    simp only [sbb64, h, BitVec.toNat_ofInt, decide_true, decide_false, Bool.toNat_true,
      Bool.toNat_false] <;> omega

theorem mul64_spec (x y : Limb) :
    (mul64 x y).1.toNat * 2 ^ 64 + (mul64 x y).2.toNat = x.toNat * y.toNat := by
  have h : x.toNat * y.toNat < 2 ^ 64 * 2 ^ 64 := Nat.mul_lt_mul'' x.isLt y.isLt
  simp only [mul64, BitVec.toNat_ofNat]
  omega

/-! ### the comparator (R63) -/

/-- Limb by limb comparison, most significant limb first, orders magnitudes as numbers. -/
theorem cmpmag_cases (x y : Mag) :
    (cmpmag x y = .gt ∧ y.toNat < x.toNat) ∨ (cmpmag x y = .lt ∧ x.toNat < y.toNat) ∨
      (cmpmag x y = .eq ∧ x.toNat = y.toNat) := by
  have hx := toNat_limbs x
  have hy := toNat_limbs y
  have bound (m : Mag) (i : Nat) : (limb m i).toNat < 2 ^ 64 := (limb m i).isLt
  have := bound x 1; have := bound x 2; have := bound x 3
  have := bound y 1; have := bound y 2; have := bound y 3
  simp only [cmpmag, cmpLimbs]
  split_ifs <;> first | (refine .inl ⟨rfl, ?_⟩; omega) | (refine .inr (.inl ⟨rfl, ?_⟩); omega) |
    (refine .inr (.inr ⟨rfl, ?_⟩); omega)

/-! ### text -/

/-- What the text buffer holds at each place (R17). -/
theorem textBuffer_get (t : List Byte) (i : Nat) (h : i < 79) : (textBuffer t)[i] = t.getD i 0 := by
  simp [textBuffer]

end Sys2Proof.Machine
end

