-- ==== Sys2Proof/Laws/PerInstr.lean ====
section
/-!
SUPPORT. Families of statements about an operation as syntax, one lemma per constructor of Instr.
-/

/-- The fields of an operation's command word (30_encoding.md R40): opcode, zero, count. -/
def Sys2Proof.Laws.EncodeFields.Statement (i : Sys2Proof.Instr) : Prop :=
  i.wellFormed = true →
    Sys2Proof.opcField (Sys2Proof.encode i) = i.opcode ∧
    Sys2Proof.rsvField (Sys2Proof.encode i) = 0 ∧
    (Sys2Proof.cntField (Sys2Proof.encode i)).toNat = i.count

namespace Sys2Proof.Laws

theorem encode_fields (i : Instr) (h : i.count < 2 ^ 16) :
    opcField (encode i) = i.opcode ∧ rsvField (encode i) = 0 ∧ (cntField (encode i)).toNat = i.count := by
  have word : (encode i).toNat = i.count * 2 ^ 16 + i.opcode.toNat := by
    have := i.opcode.isLt
    unfold encode
    rw [BitVec.toNat_append, BitVec.toNat_append, ← Nat.shiftLeft_add_eq_or_of_lt i.opcode.isLt,
      ← Nat.shiftLeft_add_eq_or_of_lt (0 : BitVec 8).isLt]
    simp only [Nat.shiftLeft_eq, BitVec.toNat_ofNat]
    simp
    omega
  have := i.opcode.isLt
  refine ⟨?_, ?_, ?_⟩
  · apply BitVec.eq_of_toNat_eq
    simp only [opcField, BitVec.extractLsb'_toNat, word, Nat.shiftRight_eq_div_pow]; omega
  · apply BitVec.eq_of_toNat_eq
    simp only [rsvField, BitVec.extractLsb'_toNat, word, Nat.shiftRight_eq_div_pow, BitVec.ofNat_eq_ofNat,
      BitVec.toNat_ofNat]; omega
  · simp only [cntField, BitVec.extractLsb'_toNat, word, Nat.shiftRight_eq_div_pow]; omega

theorem EncodeFields.iszero : EncodeFields.Statement .iszero := fun _ => encode_fields .iszero (by decide)
theorem EncodeFields.neg : EncodeFields.Statement .neg := fun _ => encode_fields .neg (by decide)
theorem EncodeFields.abs : EncodeFields.Statement .abs := fun _ => encode_fields .abs (by decide)
theorem EncodeFields.cmpmag : EncodeFields.Statement .cmpmag := fun _ => encode_fields .cmpmag (by decide)
theorem EncodeFields.cmp : EncodeFields.Statement .cmp := fun _ => encode_fields .cmp (by decide)
theorem EncodeFields.fmthex : EncodeFields.Statement .fmthex := fun _ => encode_fields .fmthex (by decide)
theorem EncodeFields.fmtdec : EncodeFields.Statement .fmtdec := fun _ => encode_fields .fmtdec (by decide)
theorem EncodeFields.add : EncodeFields.Statement .add := fun _ => encode_fields .add (by decide)
theorem EncodeFields.sub : EncodeFields.Statement .sub := fun _ => encode_fields .sub (by decide)
theorem EncodeFields.mul : EncodeFields.Statement .mul := fun _ => encode_fields .mul (by decide)
theorem EncodeFields.div : EncodeFields.Statement .div := fun _ => encode_fields .div (by decide)
theorem EncodeFields.mod : EncodeFields.Statement .mod := fun _ => encode_fields .mod (by decide)
theorem EncodeFields.and : EncodeFields.Statement .and := fun _ => encode_fields .and (by decide)
theorem EncodeFields.or : EncodeFields.Statement .or := fun _ => encode_fields .or (by decide)
theorem EncodeFields.xor : EncodeFields.Statement .xor := fun _ => encode_fields .xor (by decide)
theorem EncodeFields.shl (cnt : Nat) : EncodeFields.Statement (.shl cnt) := fun h =>
  encode_fields (.shl cnt) (by simpa [Instr.wellFormed, Instr.count, countFits] using h)
theorem EncodeFields.shr (cnt : Nat) : EncodeFields.Statement (.shr cnt) := fun h =>
  encode_fields (.shr cnt) (by simpa [Instr.wellFormed, Instr.count, countFits] using h)

end Sys2Proof.Laws
end

