-- ==== Sys2Proof/Laws/State.lean ====
section
/-!
SUPPORT. One lemma per field per update of State, and the equations of the two ways a transaction completes.
-/

namespace Sys2Proof.Machine

@[simp] theorem State.sampled_phase (s : State) : s.sampled.phase = s.phase := rfl
@[simp] theorem State.sampled_req (s : State) : s.sampled.req = s.req := rfl
@[simp] theorem State.sampled_rsp (s : State) : s.sampled.rsp = s.rsp := rfl
@[simp] theorem State.sampled_pins (s : State) : s.sampled.pins = s.pins := rfl
@[simp] theorem State.sampled_offer (s : State) : s.sampled.offer = s.standingOffer := rfl
@[simp] theorem State.sampled_latency (s : State) : s.sampled.latency = s.latency := rfl
@[simp] theorem State.sampled_draws (s : State) : s.sampled.draws = s.draws := rfl

@[simp] theorem State.resetEdge_phase (s : State) : s.resetEdge.phase = .idle := rfl
@[simp] theorem State.resetEdge_req (s : State) : s.resetEdge.req =
    Config.requestAfterRst s.draws s.phase s.req s.rsp s.latency s.pins := rfl
@[simp] theorem State.resetEdge_rsp (s : State) : s.resetEdge.rsp =
    Config.responseAfterRst s.draws s.phase s.req s.rsp s.latency s.pins := rfl
@[simp] theorem State.resetEdge_pins (s : State) : s.resetEdge.pins = s.pins := rfl
@[simp] theorem State.resetEdge_offer (s : State) : s.resetEdge.offer = s.standingOffer := rfl
@[simp] theorem State.resetEdge_latency (s : State) : s.resetEdge.latency = 0 := rfl
@[simp] theorem State.resetEdge_draws (s : State) : s.resetEdge.draws = s.draws + 1 := rfl

@[simp] theorem State.accept_phase (s : State) : s.accept.phase = .busy := rfl
@[simp] theorem State.accept_req (s : State) : s.accept.req = s.pins.req := rfl
@[simp] theorem State.accept_rsp (s : State) : s.accept.rsp = s.rsp := rfl
@[simp] theorem State.accept_pins (s : State) : s.accept.pins = s.pins := rfl
@[simp] theorem State.accept_offer (s : State) : s.accept.offer = none := rfl
@[simp] theorem State.accept_latency (s : State) : s.accept.latency = Config.latency s.draws s.pins.req := rfl
@[simp] theorem State.accept_draws (s : State) : s.accept.draws = s.draws + 1 := rfl

@[simp] theorem State.waitEdge_phase (s : State) : s.waitEdge.phase = s.phase := rfl
@[simp] theorem State.waitEdge_req (s : State) : s.waitEdge.req = s.req := rfl
@[simp] theorem State.waitEdge_rsp (s : State) : s.waitEdge.rsp = s.rsp := rfl
@[simp] theorem State.waitEdge_pins (s : State) : s.waitEdge.pins = s.pins := rfl
@[simp] theorem State.waitEdge_offer (s : State) : s.waitEdge.offer = s.standingOffer := rfl
@[simp] theorem State.waitEdge_latency (s : State) : s.waitEdge.latency = s.latency := rfl
@[simp] theorem State.waitEdge_draws (s : State) : s.waitEdge.draws = s.draws + 1 := rfl

@[simp] theorem State.busyEdge_phase (n : Nat) (s : State) : (s.busyEdge n).phase = s.phase := rfl
@[simp] theorem State.busyEdge_req (n : Nat) (s : State) : (s.busyEdge n).req = s.req := rfl
@[simp] theorem State.busyEdge_rsp (n : Nat) (s : State) : (s.busyEdge n).rsp = s.rsp := rfl
@[simp] theorem State.busyEdge_pins (n : Nat) (s : State) : (s.busyEdge n).pins = s.pins := rfl
@[simp] theorem State.busyEdge_offer (n : Nat) (s : State) : (s.busyEdge n).offer = s.standingOffer := rfl
@[simp] theorem State.busyEdge_latency (n : Nat) (s : State) : (s.busyEdge n).latency = n := rfl
@[simp] theorem State.busyEdge_draws (n : Nat) (s : State) : (s.busyEdge n).draws = s.draws + 1 := rfl

@[simp] theorem State.take_phase (s : State) : s.take.phase = .idle := rfl
@[simp] theorem State.take_req (s : State) : s.take.req = s.req := rfl
@[simp] theorem State.take_rsp (s : State) : s.take.rsp = s.rsp := rfl
@[simp] theorem State.take_pins (s : State) : s.take.pins = s.pins := rfl
@[simp] theorem State.take_offer (s : State) : s.take.offer = s.standingOffer := rfl
@[simp] theorem State.take_latency (s : State) : s.take.latency = s.latency := rfl
@[simp] theorem State.take_draws (s : State) : s.take.draws = s.draws + 1 := rfl

@[simp] theorem State.drive_phase (p : PortIn) (s : State) : (s.drive p).phase = s.phase := rfl
@[simp] theorem State.drive_req (p : PortIn) (s : State) : (s.drive p).req = s.req := rfl
@[simp] theorem State.drive_rsp (p : PortIn) (s : State) : (s.drive p).rsp = s.rsp := rfl
@[simp] theorem State.drive_pins (p : PortIn) (s : State) : (s.drive p).pins = p := rfl
@[simp] theorem State.drive_offer (p : PortIn) (s : State) : (s.drive p).offer = s.offer := rfl
@[simp] theorem State.drive_latency (p : PortIn) (s : State) : (s.drive p).latency = s.latency := rfl
@[simp] theorem State.drive_draws (p : PortIn) (s : State) : (s.drive p).draws = s.draws := rfl

@[simp] theorem State.withFetchWord_phase (s : State) (nbits w : Nat) : (s.withFetchWord nbits w).phase = .busy := rfl
@[simp] theorem State.withFetchWord_req (s : State) (nbits w : Nat) : (s.withFetchWord nbits w).req = { s.req with cmd := BitVec.ofNat 32 (w % 2 ^ nbits) } := rfl
@[simp] theorem State.withFetchWord_rsp (s : State) (nbits w : Nat) : (s.withFetchWord nbits w).rsp = s.rsp := rfl
@[simp] theorem State.withFetchWord_pins (s : State) (nbits w : Nat) : (s.withFetchWord nbits w).pins = { s.pins with rst := false } := rfl
@[simp] theorem State.withFetchWord_offer (s : State) (nbits w : Nat) : (s.withFetchWord nbits w).offer = none := rfl
@[simp] theorem State.withFetchWord_latency (s : State) (nbits w : Nat) : (s.withFetchWord nbits w).latency = 0 := rfl
@[simp] theorem State.withFetchWord_draws (s : State) (nbits w : Nat) : (s.withFetchWord nbits w).draws = s.draws := rfl

@[simp] theorem State.holding_phase (r : Request) : (State.holding r).phase = .busy := rfl
@[simp] theorem State.holding_req (r : Request) : (State.holding r).req = r := rfl
@[simp] theorem State.holding_rsp (r : Request) : (State.holding r).rsp = Response.zero := rfl
@[simp] theorem State.holding_pins (r : Request) : (State.holding r).pins = PortIn.quiet := rfl
@[simp] theorem State.holding_offer (r : Request) : (State.holding r).offer = none := rfl
@[simp] theorem State.holding_latency (r : Request) : (State.holding r).latency = 0 := rfl
@[simp] theorem State.holding_draws (r : Request) : (State.holding r).draws = 0 := rfl

@[simp] theorem Response.ofValue_val (v : Int256) (d : Diag) : (Response.ofValue v d).val = v := rfl
@[simp] theorem Response.ofValue_ord (v : Int256) (d : Diag) : (Response.ofValue v d).ord = 0 := rfl
@[simp] theorem Response.ofValue_zf (v : Int256) (d : Diag) : (Response.ofValue v d).zf = false := rfl
@[simp] theorem Response.ofValue_diag (v : Int256) (d : Diag) : (Response.ofValue v d).diag = d.code := rfl
@[simp] theorem Response.ofValue_txtLen (v : Int256) (d : Diag) : (Response.ofValue v d).txtLen = 0 := rfl
@[simp] theorem Response.ofValue_txt (v : Int256) (d : Diag) : (Response.ofValue v d).txt = Response.zero.txt := rfl

@[simp] theorem Response.ofOrd_val (o : Ordering) : (Response.ofOrd o).val = Int256.zero := rfl
@[simp] theorem Response.ofOrd_ord (o : Ordering) : (Response.ofOrd o).ord = ordCode o := rfl
@[simp] theorem Response.ofOrd_zf (o : Ordering) : (Response.ofOrd o).zf = false := rfl
@[simp] theorem Response.ofOrd_diag (o : Ordering) : (Response.ofOrd o).diag = 0 := rfl
@[simp] theorem Response.ofOrd_txtLen (o : Ordering) : (Response.ofOrd o).txtLen = 0 := rfl
@[simp] theorem Response.ofOrd_txt (o : Ordering) : (Response.ofOrd o).txt = Response.zero.txt := rfl

@[simp] theorem Response.ofFlag_val (z : Bool) : (Response.ofFlag z).val = Int256.zero := rfl
@[simp] theorem Response.ofFlag_ord (z : Bool) : (Response.ofFlag z).ord = 0 := rfl
@[simp] theorem Response.ofFlag_zf (z : Bool) : (Response.ofFlag z).zf = z := rfl
@[simp] theorem Response.ofFlag_diag (z : Bool) : (Response.ofFlag z).diag = 0 := rfl
@[simp] theorem Response.ofFlag_txtLen (z : Bool) : (Response.ofFlag z).txtLen = 0 := rfl
@[simp] theorem Response.ofFlag_txt (z : Bool) : (Response.ofFlag z).txt = Response.zero.txt := rfl

@[simp] theorem Response.ofText_val (t : List Byte) : (Response.ofText t).val = Int256.zero := rfl
@[simp] theorem Response.ofText_ord (t : List Byte) : (Response.ofText t).ord = 0 := rfl
@[simp] theorem Response.ofText_zf (t : List Byte) : (Response.ofText t).zf = false := rfl
@[simp] theorem Response.ofText_diag (t : List Byte) : (Response.ofText t).diag = 0 := rfl
@[simp] theorem Response.ofText_txtLen (t : List Byte) : (Response.ofText t).txtLen = BitVec.ofNat 7 t.length := rfl
@[simp] theorem Response.ofText_txt (t : List Byte) : (Response.ofText t).txt = textBuffer t := rfl

theorem State.reqReady_iff (s : State) : s.reqReady = true ↔ s.phase = .idle ∧ s.pins.rst = false := by
  simp [State.reqReady]

theorem State.rspValid_iff (s : State) : s.rspValid = true ↔ s.phase = .done ∧ s.pins.rst = false := by
  simp [State.rspValid]

@[simp] theorem State.outputs_reqReady (s : State) : s.outputs.reqReady = s.reqReady := rfl
@[simp] theorem State.outputs_rspValid (s : State) : s.outputs.rspValid = s.rspValid := rfl

/-- The data outputs are `RSP` while the response is valid, and the free value otherwise. -/
theorem State.outputs_rsp (s : State) : s.outputs.rsp = if s.rspValid then s.rsp else s.undriven := rfl

theorem State.accepting_iff (s : State) :
    s.accepting = true ↔ s.phase = .idle ∧ s.pins.rst = false ∧ s.pins.reqValid = true := by
  simp [State.accepting, State.reqReady_iff, and_assoc]

theorem State.taking_iff (s : State) :
    s.taking = true ↔ s.phase = .done ∧ s.pins.rst = false ∧ s.pins.rspReady = true := by
  simp [State.taking, State.rspValid_iff, and_assoc]

/-- Everything `State.complete` can do: it always answers, writing the response and the phase only. -/
theorem State.complete_next {r : Response} {s t : State} (h : s.complete r = .next t) :
    t = { s with phase := .done, rsp := r } := by
  simpa [State.complete] using h.symm

/-- Everything `State.takeIllegal` can do. -/
theorem State.takeIllegal_next {s t : State} (h : s.takeIllegal = .next t) :
    t = { s with phase := .done, rsp := Response.illegal } :=
  State.complete_next h

end Sys2Proof.Machine
end

