-- ==== Sys2Proof/Laws/Step.lean ====
section
/-!
SUPPORT. What one step can do, said once.
-/

namespace Sys2Proof.Machine

theorem State.dutyKept_iff (s : State) : s.dutyKept = true ↔ s.HostHolds := by
  unfold State.dutyKept State.HostHolds
  cases s.offer <;> simp

/-- Everything a step that answers a next state can do: one of the edges of R19 and R170. -/
theorem step_next_cases {s t : State} (h : step s = .next t) :
    s.HostHolds ∧
    ((s.pins.rst = true ∧ t = s.resetEdge) ∨
     (s.pins.rst = false ∧
      ((s.phase = .idle ∧ s.pins.reqValid = true ∧ t = s.accept) ∨
       (s.phase = .idle ∧ s.pins.reqValid = false ∧ t = s.waitEdge) ∨
       (∃ n, s.phase = .busy ∧ s.latency = n + 1 ∧ t = s.busyEdge n) ∨
       (s.phase = .busy ∧ s.latency = 0 ∧ execute s = .next t) ∨
       (s.phase = .done ∧ s.pins.rspReady = true ∧ t = s.take) ∨
       (s.phase = .done ∧ s.pins.rspReady = false ∧ t = s.waitEdge)))) := by
  unfold step at h
  split at h
  · next hd =>
    refine ⟨s.dutyKept_iff.mp hd, ?_⟩
    split at h
    · next hr => exact .inl ⟨hr, by simpa using h.symm⟩
    · next hr =>
      refine .inr ⟨by simpa using hr, ?_⟩
      split at h
      · next hp =>
        cases hv : s.pins.reqValid <;> simp_all [State.idleEdge]
      · next hp =>
        split at h
        · next hl => simp_all
        · next n hl => exact .inr (.inr (.inl ⟨n, hp, hl, by simpa using h.symm⟩))
      · next hp =>
        cases hv : s.pins.rspReady <;> simp_all [State.doneEdge]
  · cases h

/-- `exec(REQ)` (R44) is what the `execute` step answers. -/
theorem respond_eq (r : Request) : respond r = responseOf (execute (State.holding r)) := rfl

/-- What the `execute` step can do: an operation of R45, or the completion of R47. -/
theorem execute_cases (s : State) :
    (∃ i, decode s.req.cmd = .ok i ∧ execute s = exec i s.sampled) ∨
    (∃ e, decode s.req.cmd = .error e ∧ execute s = s.sampled.takeIllegal) := by
  unfold execute State.command
  split
  · next i h => exact .inl ⟨i, h, rfl⟩
  · next e h => exact .inr ⟨e, h, rfl⟩

end Sys2Proof.Machine
end

