-- ==== Sys2Proof/Tests/Slice0.lean ====
section
/-!
SUPPORT. The model's own tests: smoke tests of WellFormed, the decoding of every operation, one or two steps
of every operation, and a witness for the hypotheses of every statement that has some. Expected values are
those of spec/95_test_vectors.md (the part is named at each group), or of the encoding tables of
spec/30_encoding.md.
-/

namespace Sys2Proof.Tests

open Sys2Proof Sys2Proof.Machine

/-! ### Well-formedness: the count of a shift fits 16 bits -/

theorem test_shl_count_too_wide_refused : (Instr.shl 65536).wellFormed = false := by decide
theorem test_shr_count_too_wide_refused : (Instr.shr 65536).wellFormed = false := by decide
theorem test_shl_widest_count_accepted : (Instr.shl 65535).wellFormed = true := by decide

/-! ### Decoding: words written out from 30_encoding.md R40 and R45, `cnt`, `rsv`, `opc` -/

theorem test_decode_iszero : decode 0b0000000000000000_00000000_00000001 = .ok .iszero := by decide
theorem test_decode_neg : decode 0b0000000000000000_00000000_00000010 = .ok .neg := by decide
theorem test_decode_abs : decode 0b0000000000000000_00000000_00000011 = .ok .abs := by decide
theorem test_decode_cmpmag : decode 0b0000000000000000_00000000_00000100 = .ok .cmpmag := by decide
theorem test_decode_cmp : decode 0b0000000000000000_00000000_00000101 = .ok .cmp := by decide
theorem test_decode_fmthex : decode 0b0000000000000000_00000000_00000110 = .ok .fmthex := by decide
theorem test_decode_fmtdec : decode 0b0000000000000000_00000000_00000111 = .ok .fmtdec := by decide
theorem test_decode_add : decode 0b0000000000000000_00000000_00001000 = .ok .add := by decide
theorem test_decode_sub : decode 0b0000000000000000_00000000_00001001 = .ok .sub := by decide
theorem test_decode_mul : decode 0b0000000000000000_00000000_00001010 = .ok .mul := by decide
theorem test_decode_div : decode 0b0000000000000000_00000000_00001011 = .ok .div := by decide
theorem test_decode_mod : decode 0b0000000000000000_00000000_00001100 = .ok .mod := by decide
theorem test_decode_and : decode 0b0000000000000000_00000000_00001101 = .ok .and := by decide
theorem test_decode_or : decode 0b0000000000000000_00000000_00001110 = .ok .or := by decide
theorem test_decode_xor : decode 0b0000000000000000_00000000_00001111 = .ok .xor := by decide
theorem test_decode_shl : decode 0b0000000011111111_00000000_00010000 = .ok (.shl 255) := by decide
theorem test_decode_shr : decode 0b0000000000000100_00000000_00010001 = .ok (.shr 4) := by decide
theorem test_decode_zero_word : decode 0b0000000000000000_00000000_00000000 = .error .unknownOpcode := by decide
theorem test_decode_opcode_above_table : decode 0b0000000000000000_00000000_00010010 = .error .unknownOpcode := by
  decide
theorem test_decode_reserved_byte : decode 0b0000000000000000_00000001_00001000 = .error .reservedByte := by decide
theorem test_decode_stray_count : decode 0b0000000000000001_00000000_00001011 = .error .strayCount := by decide
theorem test_decode_table_word : decodeTableWord 32 0x00FF0010 = some (.shl 255) := by decide

/-! ### The parameters of 00_scope.md R7 and the widths of 10_state.md R16 and R17 -/

theorem test_limbs_make_a_magnitude : Config.numLimbs * Config.limbWidth = Config.magWidth := by decide
theorem test_command_word_fields : Config.opcWidth + 8 + Config.cntWidth = Config.cmdWidth := by decide
theorem test_request_is_546_bits : Config.cmdWidth + 2 * (1 + Config.magWidth) = 546 := by decide
theorem test_response_is_901_bits :
    1 + Config.magWidth + 2 + 1 + 2 + Config.txtLenWidth + Config.txtMax * 8 = 901 := by decide

/-! ### One step of every operation: the vectors of 95_test_vectors.md part 2 -/

/-- The state about to execute the command word `w` on `a` and `b`. -/
def latched (w : CmdWord) (a b : Int256) : State := State.holding ⟨w, a, b⟩

/-- The value and the diagnostic of the response a step gives. -/
def valueAfter (w : CmdWord) (a b : Int256) : Int256 × BitVec 2 :=
  ((responseOf (step (latched w a b))).val, (responseOf (step (latched w a b))).diag)

/-- The text of the response a step gives. -/
def textAfter (w : CmdWord) (a : Int256) : List Byte := (responseOf (step (latched w a Int256.zero))).text

/-- The largest magnitude, `M` of 95_test_vectors.md. -/
def maxMag : Mag := 0xffffffffffffffffffffffffffffffffffffffffffffffffffffffffffffffff

/-- `T` of 95_test_vectors.md. -/
def topBit : Mag := 0x8000000000000000000000000000000000000000000000000000000000000000

/-- `X` of 95_test_vectors.md. -/
def mixed : Mag := 0x800000000000000100000000000000020000000000000003f000000000000004

theorem test_iszero_of_negative_zero :
    (responseOf (step (latched 0x00000001 ⟨true, 0⟩ Int256.zero))).zf = true := by decide +kernel
theorem test_iszero_of_minus_five :
    (responseOf (step (latched 0x00000001 ⟨true, 5⟩ Int256.zero))).zf = false := by decide +kernel
theorem test_neg_of_zero : valueAfter 0x00000002 ⟨false, 0⟩ ⟨true, 9⟩ = (⟨false, 0⟩, 0) := by decide +kernel
theorem test_neg_of_largest : valueAfter 0x00000002 ⟨false, maxMag⟩ ⟨false, 0⟩ = (⟨true, maxMag⟩, 0) := by
  decide +kernel
theorem test_abs_of_negative : valueAfter 0x00000003 ⟨true, 7⟩ ⟨true, 9⟩ = (⟨false, 7⟩, 0) := by decide +kernel
theorem test_cmpmag_ignores_signs :
    (responseOf (step (latched 0x00000004 ⟨true, 9⟩ ⟨false, 3⟩))).ord = 0b01 := by decide +kernel
theorem test_cmpmag_last_limb :
    (responseOf (step (latched 0x00000004 ⟨false, maxMag - 1⟩ ⟨false, maxMag⟩))).ord = 0b11 := by decide +kernel
theorem test_cmp_both_negative :
    (responseOf (step (latched 0x00000005 ⟨true, 5⟩ ⟨true, 3⟩))).ord = 0b11 := by decide +kernel
theorem test_cmp_negative_zero_with_zero :
    (responseOf (step (latched 0x00000005 ⟨true, 0⟩ ⟨false, 0⟩))).ord = 0b00 := by decide +kernel
theorem test_fmthex_pads_lower_limbs :
    textAfter 0x00000006 ⟨false, 0x10000000000000000⟩ = [0x30, 0x78, 0x31] ++ List.replicate 16 0x30 := by
  decide +kernel
theorem test_fmthex_negative : textAfter 0x00000006 ⟨true, 255⟩ = [0x2d, 0x30, 0x78, 0x66, 0x66] := by
  decide +kernel
theorem test_fmtdec_pads_later_chunks :
    textAfter 0x00000007 ⟨true, 1000000005⟩ =
      [0x2d, 0x31, 0x30, 0x30, 0x30, 0x30, 0x30, 0x30, 0x30, 0x30, 0x35] := by
  decide +kernel
theorem test_fmtdec_of_negative_zero : textAfter 0x00000007 ⟨true, 0⟩ = [0x30] := by decide +kernel
theorem test_add_overflow_to_zero :
    valueAfter 0x00000008 ⟨true, topBit⟩ ⟨true, topBit⟩ = (⟨false, 0⟩, 0b01) := by decide +kernel
theorem test_add_borrows :
    valueAfter 0x00000008 ⟨false, 0x10000000000000000⟩ ⟨true, 1⟩ = (⟨false, 0xffffffffffffffff⟩, 0b00) := by
  decide +kernel
theorem test_sub_overflow : valueAfter 0x00000009 ⟨false, maxMag⟩ ⟨true, 1⟩ = (⟨false, 0⟩, 0b01) := by
  decide +kernel
theorem test_sub_negative : valueAfter 0x00000009 ⟨false, 5⟩ ⟨false, 7⟩ = (⟨true, 2⟩, 0b00) := by decide +kernel
theorem test_mul_largest : valueAfter 0x0000000A ⟨false, maxMag⟩ ⟨false, maxMag⟩ = (⟨false, 1⟩, 0b01) := by
  decide +kernel
theorem test_mul_two_limbs :
    valueAfter 0x0000000A ⟨true, 0xFFFFFFFFFFFFFFFF⟩ ⟨false, 2⟩ = (⟨true, 0x1fffffffffffffffe⟩, 0b00) := by
  decide +kernel
theorem test_div_truncates : valueAfter 0x0000000B ⟨true, 7⟩ ⟨false, 2⟩ = (⟨true, 3⟩, 0b00) := by decide +kernel
theorem test_div_zero_by_zero : valueAfter 0x0000000B ⟨false, 0⟩ ⟨false, 0⟩ = (⟨false, 0⟩, 0b10) := by
  decide +kernel
theorem test_mod_dividend_sign : valueAfter 0x0000000C ⟨true, 7⟩ ⟨false, 2⟩ = (⟨true, 1⟩, 0b00) := by
  decide +kernel
theorem test_mod_wide_divisor :
    valueAfter 0x0000000C ⟨false, maxMag⟩ ⟨false, topBit + 1⟩ = (⟨false, topBit - 2⟩, 0b00) := by decide +kernel
theorem test_and_zero_of_negatives : valueAfter 0x0000000D ⟨true, 1⟩ ⟨true, 2⟩ = (⟨false, 0⟩, 0b00) := by
  decide +kernel
theorem test_or_of_signs : valueAfter 0x0000000E ⟨true, 12⟩ ⟨false, 10⟩ = (⟨true, 14⟩, 0b00) := by decide +kernel
theorem test_xor_of_negatives : valueAfter 0x0000000F ⟨true, 12⟩ ⟨true, 10⟩ = (⟨false, 6⟩, 0b00) := by
  decide +kernel
theorem test_shl_limb_and_bits :
    valueAfter 0x00440010 ⟨false, mixed⟩ ⟨false, 0⟩ =
      (⟨false, 0x20000000000000003f00000000000000400000000000000000⟩, 0b00) := by decide +kernel
theorem test_shl_by_256 : valueAfter 0x01000010 ⟨true, 1⟩ ⟨false, 0⟩ = (⟨false, 0⟩, 0b00) := by decide +kernel
theorem test_shr_limb_and_bits :
    valueAfter 0x00440011 ⟨true, mixed⟩ ⟨false, 0⟩ =
      (⟨true, 0x80000000000000010000000000000002000000000000000⟩, 0b00) := by decide +kernel
theorem test_shr_to_zero : valueAfter 0x00010011 ⟨true, 1⟩ ⟨false, 0⟩ = (⟨false, 0⟩, 0b00) := by decide +kernel
theorem test_reserved_word_is_not_divided :
    responseOf (step (latched 0x0001000B ⟨false, 5⟩ ⟨false, 0⟩)) = Response.illegal := by decide +kernel
theorem test_fetch_word_runs_next :
    step (State.reset.withFetchWord 32 0x00FF0010) = exec (.shl 255) (State.reset.withFetchWord 32 0x00FF0010) :=
  rfl

/-! ### Host procedures: 95_test_vectors.md part 2.10 -/

theorem test_pow_three_to_five : (pow 8 ⟨false, 3⟩ 5).res = ⟨false, 243⟩ ∧ (pow 8 ⟨false, 3⟩ 5).transactions = 4 := by
  decide +kernel
theorem test_factorial_of_five : (factorial 8 true 5).acc = ⟨false, 120⟩ := by decide +kernel
theorem test_factorial_forwards_each_mul_overflow :
    (factorial 8 true 60).mulOverflows = [58, 59, 60] ∧ (factorial 8 false 60).mulOverflows = [] := by
  decide +kernel
theorem test_parse_skips_space_and_is_silent_by_default :
    parse { moreWhitespace := [], hexLower := false, prefixBacktrack := false } [0x20, 0x37, 0x20] =
      ⟨⟨false, 7⟩, false, false⟩ := by
  decide +kernel
theorem test_parse_sign_then_prefix :
    parse ⟨[0x09], false, false, false⟩ [0x2d, 0x30, 0x78, 0x31, 0x46] = ⟨⟨true, 0x1f⟩, false, false⟩ := by
  decide +kernel
theorem test_parse_trailing_letters :
    parse ⟨[0x09], false, false, false⟩ [0x31, 0x32, 0x61, 0x62, 0x63] = ⟨⟨false, 12⟩, true, false⟩ := by
  decide +kernel
theorem test_clamp_of_minus_one : clampShift (-1) = (255, true) := by decide

/-! ### Witnesses: a state and operands that meet the hypotheses of each statement that has some -/

/-- A request the witnesses use. -/
def someRequest : Request := ⟨0x00000008, ⟨false, 2⟩, ⟨true, 3⟩⟩

/-- The input ports with that request on offer. -/
def offering : PortIn := { PortIn.quiet with reqValid := true, req := someRequest }

/-- The input ports with the host ready for a response. -/
def receiving : PortIn := { PortIn.quiet with rspReady := true }

/-- The block with a response that has not been taken. -/
def answered (p : PortIn) : State :=
  { State.holding someRequest with phase := .done, rsp := respond someRequest, pins := p }

theorem hostHolds_of_no_offer {s : State} (h : s.offer = none) : s.HostHolds := by
  intro r hr
  rw [h] at hr
  cases hr

theorem witness_DecodeOfEncode :
    (Instr.shl 65535).wellFormed = true ∧ (Instr.shr 0).wellFormed = true ∧ Instr.add.wellFormed = true := by
  decide
theorem witness_EncodeOfDecode : decode 0xFFFF0011 = .ok (.shr 65535) ∧ decode 0x00000001 = .ok .iszero := by
  decide
theorem witness_ReservedWordsCompleteAsIllegal :
    let s := latched 0x00000108 ⟨false, 5⟩ ⟨false, 0⟩
    s.phase = .busy ∧ s.latency = 0 ∧ s.pins.rst = false ∧ s.HostHolds ∧
      decode s.req.cmd = .error .reservedByte :=
  ⟨rfl, rfl, rfl, hostHolds_of_no_offer rfl, by decide⟩
theorem witness_StepRunsDecodedOperation :
    let s := latched 0x00000008 ⟨false, 5⟩ ⟨false, 7⟩
    s.phase = .busy ∧ s.latency = 0 ∧ s.pins.rst = false ∧ s.HostHolds ∧ decode s.req.cmd = .ok .add :=
  ⟨rfl, rfl, rfl, hostHolds_of_no_offer rfl, by decide⟩
theorem witness_AcceptLatchesOfferedRequest :
    let s := State.reset.drive offering
    s.HostHolds ∧ s.reqReady = true ∧ s.pins.reqValid = true :=
  ⟨hostHolds_of_no_offer rfl, by decide, rfl⟩
theorem witness_TakeReturnsToIdle :
    let s := answered receiving
    s.HostHolds ∧ s.rspValid = true ∧ s.pins.rspReady = true :=
  ⟨hostHolds_of_no_offer rfl, by decide, rfl⟩
theorem witness_OtherEdgesWait_idle :
    State.reset.HostHolds ∧ State.reset.pins.rst = false ∧
      (State.reset.phase = .idle ∧ State.reset.pins.reqValid = false) :=
  ⟨hostHolds_of_no_offer rfl, rfl, rfl, rfl⟩
theorem witness_OtherEdgesWait_busy :
    let s := { latched 0x00000008 ⟨false, 5⟩ ⟨false, 7⟩ with latency := 1 }
    s.HostHolds ∧ s.pins.rst = false ∧ (s.phase = .busy ∧ s.latency ≠ 0) :=
  ⟨hostHolds_of_no_offer rfl, rfl, rfl, by decide⟩
theorem witness_OtherEdgesWait_done :
    let s := answered PortIn.quiet
    s.HostHolds ∧ s.pins.rst = false ∧ (s.phase = .done ∧ s.pins.rspReady = false) :=
  ⟨hostHolds_of_no_offer rfl, rfl, rfl, rfl⟩
theorem witness_ResetInputAbandonsTransaction :
    let s := answered { PortIn.quiet with rst := true }
    s.pins.rst = true ∧ s.HostHolds :=
  ⟨rfl, hostHolds_of_no_offer rfl⟩
theorem witness_OnlyBrokenHandshakeStops :
    State.reset.HostHolds ∧ ¬ { State.reset with offer := some someRequest }.HostHolds := by
  refine ⟨hostHolds_of_no_offer rfl, fun h => ?_⟩
  have := h someRequest rfl
  exact absurd this.1 (by decide)
theorem witness_OutputPortsFollowPhase :
    (answered PortIn.quiet).pins.rst = false ∧ (answered PortIn.quiet).phase = .done :=
  ⟨rfl, rfl⟩
theorem witness_ValidResponseIsHeld :
    let s := answered PortIn.quiet
    s.HostHolds ∧ s.rspValid = true ∧ s.pins.rspReady = false ∧ receiving.rst = false :=
  ⟨hostHolds_of_no_offer rfl, by decide, rfl, rfl⟩
theorem witness_StepKeepsResponseOfRequest :
    (answered PortIn.quiet).Inv ∧ step (answered PortIn.quiet) = .next (answered PortIn.quiet).waitEdge :=
  ⟨fun _ => rfl, rfl⟩
theorem witness_StepKeepsResponseOfRequest_execute :
    (latched 0x00000008 ⟨false, 5⟩ ⟨false, 7⟩).Inv ∧
      step (latched 0x00000008 ⟨false, 5⟩ ⟨false, 7⟩) =
        execAdd (latched 0x00000008 ⟨false, 5⟩ ⟨false, 7⟩).sampled :=
  ⟨fun h => (nomatch h), rfl⟩
theorem witness_OperationReadsRequestOnly :
    (latched 0x00000008 ⟨false, 5⟩ ⟨false, 7⟩).req =
      { latched 0x00000008 ⟨false, 5⟩ ⟨false, 7⟩ with rsp := respond someRequest, draws := 4 }.req := rfl
theorem witness_UnreadOperandHasNoEffect :
    (Instr.shr 65535).wellFormed = true ∧ (Instr.shr 65535).format ≠ .B ∧ Instr.neg.wellFormed = true ∧
      Instr.neg.format ≠ .B := by decide
theorem witness_UnreadableFieldsStayUnseen :
    State.reset.SameSeen { State.reset with req := someRequest, rsp := respond someRequest, latency := 3 } :=
  ⟨rfl, rfl, rfl, rfl, fun h => (nomatch h), fun h => (nomatch h), fun h => (nomatch h)⟩
theorem witness_UnreadableFieldsStayUnseen_refused :
    { State.reset with offer := some someRequest }.SameSeen
        { State.reset with offer := some someRequest, rsp := respond someRequest } ∧
      step { State.reset with offer := some someRequest } = .refused .hostBrokeHandshake :=
  ⟨⟨rfl, rfl, rfl, rfl, fun h => (nomatch h), fun h => (nomatch h), fun h => (nomatch h)⟩, rfl⟩

theorem edges_append (ps qs : List PortIn) (r : Run) :
    Run.edges (ps ++ qs) r = (Run.edges ps r).bind (Run.edges qs) := by
  induction ps generalizing r with
  | nil => rfl
  | cons p ps ih => cases h : r.edge p <;> simp [Run.edges, h, ih]

theorem step_of_latched_request (rsp : Response) (pins : PortIn) (draws : Nat) :
    step (State.drive PortIn.quiet ⟨.busy, someRequest, rsp, pins, none, 0, draws⟩) =
      .next ⟨.done, someRequest, respond someRequest, PortIn.quiet, none, 0, draws⟩ := by
  have hd : decode someRequest.cmd = .ok .add := by decide
  have h : step (State.drive PortIn.quiet ⟨.busy, someRequest, rsp, pins, none, 0, draws⟩) =
      exec .add ⟨.busy, someRequest, rsp, PortIn.quiet, none, 0, draws⟩ := by
    simp [step, State.dutyKept, State.drive, PortIn.quiet, execute, State.command, hd, State.sampled,
      State.standingOffer]
  rw [h]
  rfl

/-- A latched request, the host driving nothing, is answered after its latency. -/
theorem quiet_edges_answer (n : Nat) (r : Run) (hp : r.state.phase = .busy) (hr : r.state.req = someRequest)
    (hl : r.state.latency = n) (ho : r.state.offer = none) :
    ∃ r', Run.edges (List.replicate (n + 1) PortIn.quiet) r = some r' ∧ r'.state.phase = .done ∧
      r'.state.offer = none := by
  obtain ⟨s, acc, tak⟩ := r
  obtain ⟨phase, req, rsp, pins, offer, latency, draws⟩ := s
  simp only at hp hr hl ho
  subst hp hr hl ho
  induction latency generalizing rsp pins draws with
  | zero =>
    refine ⟨⟨⟨.done, someRequest, respond someRequest, PortIn.quiet, none, 0, draws⟩, acc, tak⟩, ?_, rfl, rfl⟩
    simp only [List.replicate, Run.edges, Run.edge, step_of_latched_request]
    rfl
  | succ n ih => exact ih rsp PortIn.quiet (draws + 1)

/-- A response that is valid is taken at an edge where the host is ready. -/
theorem receiving_edge_takes (r : Run) (hp : r.state.phase = .done) (ho : r.state.offer = none) :
    ∃ r', Run.edges [receiving] r = some r' ∧ r'.taken = r.taken ++ [r.state.rsp] := by
  obtain ⟨s, acc, tak⟩ := r
  obtain ⟨phase, req, rsp, pins, offer, latency, draws⟩ := s
  simp only at hp ho
  subst hp ho
  exact ⟨⟨⟨.idle, req, rsp, receiving, none, latency, draws + 1⟩, acc, tak ++ [rsp]⟩, rfl, rfl⟩

theorem witness_ResponsesComeInRequestOrder :
    ∃ (ins : List PortIn) (r : Run), State.reset.phase = .idle ∧ (∀ p ∈ ins, p.rst = false) ∧
      Run.edges ins (Run.start State.reset) = some r ∧ r.taken ≠ [] := by
  have first : Run.edges [offering] (Run.start State.reset) =
    some ⟨(State.reset.drive offering).accept, [someRequest], []⟩ := rfl
  obtain ⟨r, h, hp, ho⟩ := quiet_edges_answer _ ⟨(State.reset.drive offering).accept, [someRequest], []⟩
    rfl rfl rfl rfl
  obtain ⟨r', h', ht⟩ := receiving_edge_takes r hp ho
  refine ⟨[offering] ++ (List.replicate (Config.latency 0 someRequest + 1) PortIn.quiet ++ [receiving]), r',
    rfl, ?_, ?_, by simp [ht]⟩
  rotate_left
  · rw [edges_append, first, Option.bind_some, edges_append]
    exact (congrArg (Option.bind · (Run.edges [receiving])) h).trans h'
  · intro p hp
    simp only [List.mem_append, List.mem_cons, List.mem_replicate, List.not_mem_nil, or_false] at hp
    rcases hp with rfl | ⟨-, rfl⟩ | rfl <;> rfl

theorem witness_ResetsOnlyAbandonResponses :
    State.reset.phase = .idle ∧
      ∃ r, Run.edges [offering, { PortIn.quiet with rst := true }] (Run.start State.reset) = some r ∧
        r.accepted = [someRequest] ∧ r.taken = [] :=
  ⟨rfl, _, rfl, rfl, rfl⟩
theorem witness_OfferedRequestIsAnswered :
    let s := State.reset.drive offering
    s.phase = .idle ∧ s.pins.rst = false ∧ s.pins.reqValid = true ∧ s.HostHolds :=
  ⟨rfl, rfl, rfl, hostHolds_of_no_offer rfl⟩
theorem witness_ShlMultipliesMagnitude : 65535 < 2 ^ 16 ∧ 0 < 2 ^ 16 := by decide
theorem witness_ShrDividesMagnitude : 65535 < 2 ^ 16 ∧ 0 < 2 ^ 16 := by decide
theorem witness_BorrowChainSubtracts : (5 : Mag).toNat ≤ (5 : Mag).toNat ∧ (0 : Mag).toNat ≤ maxMag.toNat := by
  decide
theorem witness_LongDivisionDivides : maxMag ≠ 0 := by decide
theorem witness_RunningRemainderFits_first :
    topBit + 1 ≠ 0 ∧ 255 < 256 ∧
      (0 : Mag).toNat = maxMag.toNat / 2 ^ (255 + 1) % (topBit + 1).toNat := by decide +kernel
theorem witness_RunningRemainderFits_last :
    topBit + 1 ≠ 0 ∧ 0 < 256 ∧
      (topBit - 1).toNat = maxMag.toNat / 2 ^ (0 + 1) % (topBit + 1).toNat := by decide +kernel
theorem witness_LimbShiftsShift : 255 ≤ 255 ∧ 0 ≤ 255 := by decide
theorem witness_DivisionIdentity : (⟨true, maxMag⟩ : Int256).mag ≠ 0 := by decide
theorem witness_ShiftsBackAndForthMask : 255 ≤ 255 ∧ 0 ≤ 255 := by decide
theorem witness_DiagnosticsExactly :
    let s := latched 0x0000000B ⟨false, 5⟩ ⟨true, 0⟩
    exec .div s = .next { s with phase := .done, rsp := { Response.zero with diag := 0b10 } } := rfl
theorem witness_ParseUndoesFmtdec :
    ∀ c ∈ ([0x20, 0x09, 0x0A] : List Byte), c ≠ 0x2D ∧ ¬ (0x30 ≤ c.toNat ∧ c.toNat ≤ 0x39) := by decide
theorem witness_AccumulateMultipliesAndAdds : 15 < 16 ∧ 16 ≤ 16 ∧ 0 < 2 ∧ 2 ≤ 16 := by decide
theorem witness_ParseTruncatesDecimalInput :
    (∀ d ∈ [9, 0, 1], d < 10) ∧
      ∀ c ∈ ([0x20, 0x09] : List Byte), ¬ (0x30 ≤ c.toNat ∧ c.toNat ≤ 0x39) := by decide
theorem witness_FactorialRanges :
    (57 : BitVec 16).toNat ≤ 57 ∧ 58 ≤ (58 : BitVec 16).toNat ∧ (257 : BitVec 16).toNat ≤ 257 ∧
      258 ≤ (258 : BitVec 16).toNat := by decide
theorem witness_ClampShiftRange : (0 : Int) ≤ 0 ∧ (255 : Int) ≤ 255 ∧ (-1 : Int) < 0 ∧ (255 : Int) < 256 := by
  decide

end Sys2Proof.Tests
end

section
/-!
SUPPORT. The relation on runs that the proof about reset contents keeps (10_state.md R26): `State.SameSeen`
on the states reached, and equal histories at the ports.
-/

namespace Sys2Proof.Machine

/-- Two runs that have shown the host the same, and stand where it cannot tell them apart. -/
structure Run.SameSeen (r q : Run) : Prop where
  state : r.state.SameSeen q.state
  accepted : r.accepted = q.accepted
  taken : r.taken = q.taken

end Sys2Proof.Machine
end

section
/-!
SUPPORT. What every operation has in common (30_encoding.md R43, R44): it completes the transaction, from
the canonicalised operands alone; hence `execute` writes `exec(REQ)`, which `respond` computes.
-/

namespace Sys2Proof.Machine

@[simp] theorem responseOf_complete (r : Response) (s : State) : responseOf (s.complete r) = r := rfl

theorem State.complete_eq (r : Response) (s : State) :
    s.complete r = .next { s with phase := .done, rsp := r } := rfl

/-- Every operation ends by completing the transaction (R19, R150, R157). -/
theorem exec_eq_complete (i : Instr) (s : State) : exec i s = s.complete (responseOf (exec i s)) := by
  cases i <;> rfl

/-- An operation reads nothing but its canonicalised operands (R15, R22). -/
theorem responseOf_exec_congr (i : Instr) {s t : State} (hA : s.opA = t.opA) (hB : s.opB = t.opB) :
    responseOf (exec i s) = responseOf (exec i t) := by
  cases i <;>
    simp only [exec, execIszero, execNeg, execAbs, execCmpmag, execCmp, execFmthex, execFmtdec, execAdd,
      execSub, execMul, execDiv, execMod, execAnd, execOr, execXor, execShl, execShr, responseOf_complete,
      hA, hB]

theorem State.opA_congr {s t : State} (h : s.req = t.req) : s.opA = t.opA := by
  simp only [State.opA, h]

theorem State.opB_congr {s t : State} (h : s.req = t.req) : s.opB = t.opB := by
  simp only [State.opB, h]

theorem execute_of_ok {s : State} {i : Instr} (h : decode s.req.cmd = .ok i) :
    execute s = exec i s.sampled := by
  simp only [execute, State.command, h]

theorem execute_of_error {s : State} {e : Reserved} (h : decode s.req.cmd = .error e) :
    execute s = s.sampled.takeIllegal := by
  simp only [execute, State.command, h]

theorem respond_of_ok {r : Request} {i : Instr} (h : decode r.cmd = .ok i) :
    respond r = responseOf (exec i (State.holding r)) := by
  rw [respond_eq, execute_of_ok (s := State.holding r) h]
  exact responseOf_exec_congr i rfl rfl

theorem respond_of_error {r : Request} {e : Reserved} (h : decode r.cmd = .error e) :
    respond r = Response.illegal := by
  rw [respond_eq, execute_of_error (s := State.holding r) h]
  rfl

/-- `execute`: `RSP <- exec(REQ) ; phase <- DONE` (R19, R44), for reserved words too. -/
theorem execute_eq_complete (s : State) : execute s = s.sampled.complete (respond s.req) := by
  cases h : decode s.req.cmd with
  | ok i =>
    have answer : responseOf (exec i s.sampled) = respond s.req :=
      (respond_of_ok h).symm ▸ responseOf_exec_congr i rfl rfl
    rw [execute_of_ok h, exec_eq_complete, answer]
  | error e => rw [execute_of_error h, respond_of_error h, State.takeIllegal]

/-- Requests with the same command word and the same canonicalised operands have the same response. -/
theorem respond_congr {r r' : Request} (hcmd : r.cmd = r'.cmd)
    (hA : canon r.a.neg r.a.mag = canon r'.a.neg r'.a.mag)
    (hB : canon r.b.neg r.b.mag = canon r'.b.neg r'.b.mag) : respond r = respond r' := by
  cases h : decode r.cmd with
  | ok i =>
    rw [respond_of_ok h, respond_of_ok (hcmd ▸ h)]
    exact responseOf_exec_congr i hA hB
  | error e => rw [respond_of_error h, respond_of_error (hcmd ▸ h)]

/-- Writing canonical zero for an operand of zero magnitude does not change what `canon` reads (R15). -/
theorem canon_of_zero_replaced (x : Int256) :
    let y : Int256 := if x.mag = 0 then ⟨false, 0⟩ else x
    canon y.neg y.mag = canon x.neg x.mag := by
  intro y
  unfold y
  split
  · next h => rw [h, canon_zero, canon_zero]
  · rfl

end Sys2Proof.Machine
end

section
/-!
SUPPORT. One equation of `step` for each edge of 10_state.md R19 and 70_reset_and_hazards.md R170, R176.
-/

namespace Sys2Proof.Machine

variable {s : State}

theorem step_of_broken_handshake (hh : ¬ s.HostHolds) : step s = .refused .hostBrokeHandshake := by
  rw [step, if_neg (mt s.dutyKept_iff.mp hh)]

theorem step_of_rst (hh : s.HostHolds) (hr : s.pins.rst = true) : step s = .next s.resetEdge := by
  rw [step, if_pos (s.dutyKept_iff.mpr hh), if_pos hr]

theorem step_of_accept (hh : s.HostHolds) (hr : s.pins.rst = false) (hp : s.phase = .idle)
    (hv : s.pins.reqValid = true) : step s = .next s.accept := by
  simp [step, s.dutyKept_iff.mpr hh, hr, hp, State.idleEdge, hv]

theorem step_of_idle_wait (hh : s.HostHolds) (hr : s.pins.rst = false) (hp : s.phase = .idle)
    (hv : s.pins.reqValid = false) : step s = .next s.waitEdge := by
  simp [step, s.dutyKept_iff.mpr hh, hr, hp, State.idleEdge, hv]

theorem step_of_busy_wait {n : Nat} (hh : s.HostHolds) (hr : s.pins.rst = false) (hp : s.phase = .busy)
    (hl : s.latency = n + 1) : step s = .next (s.busyEdge n) := by
  simp [step, s.dutyKept_iff.mpr hh, hr, hp, hl]

theorem step_of_execute (hh : s.HostHolds) (hr : s.pins.rst = false) (hp : s.phase = .busy)
    (hl : s.latency = 0) : step s = execute s := by
  simp [step, s.dutyKept_iff.mpr hh, hr, hp, hl]

theorem step_of_take (hh : s.HostHolds) (hr : s.pins.rst = false) (hp : s.phase = .done)
    (hy : s.pins.rspReady = true) : step s = .next s.take := by
  simp [step, s.dutyKept_iff.mpr hh, hr, hp, State.doneEdge, hy]

theorem step_of_done_wait (hh : s.HostHolds) (hr : s.pins.rst = false) (hp : s.phase = .done)
    (hy : s.pins.rspReady = false) : step s = .next s.waitEdge := by
  simp [step, s.dutyKept_iff.mpr hh, hr, hp, State.doneEdge, hy]

end Sys2Proof.Machine
end

section
/-!
SUPPORT. The shapes a response takes (30_encoding.md R43) are those of 10_state.md R13 and R17: the values
are canonical, and the texts fit the buffer.
-/

namespace Sys2Proof.Machine

/-! ### Canonical values -/

theorem addSigned_canonical (a b : Int256) : (addSigned a b).1.canonical := by
  unfold addSigned
  split
  · exact canon_canonical _ _
  · split
    · exact fun _ => rfl
    · exact canon_canonical _ _
    · exact canon_canonical _ _

theorem divSigned_canonical (a b : Int256) : (divSigned a b).1.canonical := by
  unfold divSigned
  split_ifs
  · exact fun _ => rfl
  · exact fun _ => rfl
  · exact canon_canonical _ _

/-- MOD hands its dividend through where that is the smaller, so the dividend must be canonical (R103). -/
theorem modSigned_canonical {a : Int256} (ha : a.canonical) (b : Int256) : (modSigned a b).1.canonical := by
  unfold modSigned
  split_ifs
  · exact fun _ => rfl
  · exact ha
  · exact canon_canonical _ _

/-! ### Lengths of texts -/

@[simp] theorem fixedDigits_length (base v n : Nat) : (fixedDigits base v n).length = n := by
  induction n with
  | zero => rfl
  | succ n ih => rw [fixedDigits, List.length_cons, ih]

theorem dropZeros_length_le (ds : List Nat) : (dropZeros ds).length ≤ ds.length :=
  List.length_dropWhile_le ..

/-- A number below `base ^ d` has at most `d` digits once the leading zeros are dropped. -/
theorem dropZeros_fixedDigits_length_le {base v d : Nat} (n : Nat) (hb : 0 < base) (hv : v < base ^ d) :
    (dropZeros (fixedDigits base v n)).length ≤ d := by
  induction n with
  | zero => exact Nat.zero_le d
  | succ n ih =>
    by_cases hd : d ≤ n
    · have lead : v / base ^ n % base = 0 := by
        rw [Nat.div_eq_of_lt (hv.trans_le (Nat.pow_le_pow_right hb hd)), Nat.zero_mod]
      simpa [fixedDigits, lead, dropZeros] using ih
    · calc (dropZeros (fixedDigits base v (n + 1))).length
          ≤ n + 1 := by simpa using dropZeros_length_le (fixedDigits base v (n + 1))
        _ ≤ d := by omega

theorem signText_length_le (neg : Bool) : (signText neg).length ≤ 1 := by
  cases neg <;> decide

theorem hex16_length (v : Limb) : (hex16 v).length = 16 := by simp [hex16]

theorem hexMin_length_le (v : Limb) : (hexMin v).length ≤ 16 := by
  unfold hexMin
  split
  · decide
  · simpa using dropZeros_length_le (fixedDigits 16 v.toNat 16)

theorem flatten_map_length {α : Type} {f : α → List Byte} {n : Nat} (hf : ∀ a, (f a).length = n)
    (as : List α) : (as.map f).flatten.length = n * as.length := by
  simp [List.length_flatten, Function.comp_def, hf, Nat.mul_comm]

theorem hexLimbs_length_le (ls : List Limb) : (hexLimbs ls).length ≤ 16 * ls.length := by
  induction ls using hexLimbs.induct with
  | case1 => exact Nat.le_refl 0
  | case2 l => exact hexMin_length_le l
  | case3 ls hls ih =>
    rw [hexLimbs, if_pos rfl, List.length_cons]
    · omega
    · exact hls
  | case4 l ls hls hl =>
    have lead := hexMin_length_le l
    rw [hexLimbs, if_neg hl, List.length_append, flatten_map_length hex16_length, List.length_cons]
    · omega
    · exact hls

theorem formatHex_length_le (x : Int256) : (formatHex x).length ≤ 67 := by
  have sign := signText_length_le x.neg
  have limbs := hexLimbs_length_le [limb x.mag 0, limb x.mag 1, limb x.mag 2, limb x.mag 3]
  simp only [formatHex, List.length_append, List.length_cons, List.length_nil] at limbs ⊢
  omega

theorem dec9_length (c : Nat) : (dec9 c).length = 9 := by simp [dec9, Config.decChunkDigits]

theorem decMin_length_le {c d : Nat} (hc : c < 10 ^ d) : (decMin c).length ≤ d := by
  simpa [decMin] using dropZeros_fixedDigits_length_le Config.decChunkDigits (by decide) hc

theorem decMin_length_le_nine (c : Nat) : (decMin c).length ≤ 9 := by
  simpa [decMin, Config.decChunkDigits] using dropZeros_length_le (fixedDigits 10 c Config.decChunkDigits)

theorem renderChunks_cons_length (c : Nat) (cs : List Nat) :
    (renderChunks (c :: cs)).length = (decMin c).length + 9 * cs.length := by
  rw [renderChunks, List.length_append, flatten_map_length dec9_length]

theorem renderChunks_length_le (cs : List Nat) : (renderChunks cs).length ≤ 9 * cs.length := by
  cases cs with
  | nil => exact Nat.le_refl 0
  | cons c cs =>
    have := decMin_length_le_nine c
    rw [renderChunks_cons_length, List.length_cons]
    omega

theorem chunkLoop_zero (fuel : Nat) (cs : List Nat) : chunkLoop fuel 0 cs = cs := by
  cases fuel <;> simp [chunkLoop]

theorem chunkStep_fst_toNat (m : Mag) : (chunkStep m).1.toNat = m.toNat / 10 ^ 9 := by
  have := m.isLt
  simp only [chunkStep, Config.decChunk, BitVec.toNat_ofNat]
  omega

theorem chunkStep_snd (m : Mag) : (chunkStep m).2 = m.toNat % 10 ^ 9 := rfl

/-- The chunk loop writes at most `d` digits of a magnitude below `10 ^ d`, before nine for each chunk it
already has. -/
theorem renderChunks_chunkLoop_length_le (fuel : Nat) {m : Mag} {d : Nat} (cs : List Nat)
    (hm : m.toNat < 10 ^ d) : (renderChunks (chunkLoop fuel m cs)).length ≤ d + 9 * cs.length := by
  induction fuel generalizing m d cs with
  | zero => exact (renderChunks_length_le cs).trans (Nat.le_add_left _ _)
  | succ fuel ih =>
    rw [chunkLoop]
    split
    · exact (renderChunks_length_le cs).trans (Nat.le_add_left _ _)
    · by_cases hd : 9 ≤ d
      · have quotient : (chunkStep m).1.toNat < 10 ^ (d - 9) := by
          rw [chunkStep_fst_toNat]
          exact Nat.div_lt_of_lt_mul (by rwa [← Nat.pow_add, Nat.add_sub_cancel' hd])
        have := ih ((chunkStep m).2 :: cs) quotient
        rw [List.length_cons] at this
        omega
      · have small : m.toNat < 10 ^ 9 := hm.trans_le (Nat.pow_le_pow_right (by decide) (by omega))
        have last : (chunkStep m).1 = 0 := by
          apply BitVec.eq_of_toNat_eq
          rw [chunkStep_fst_toNat, Nat.div_eq_of_lt small]
          rfl
        have digits : (decMin (chunkStep m).2).length ≤ d :=
          decMin_length_le ((Nat.mod_le _ _).trans_lt hm)
        rw [last, chunkLoop_zero, renderChunks_cons_length]
        omega

/-- A magnitude has at most 78 decimal digits, which with the sign fill the buffer (R17, R72). -/
theorem formatDec_length_le (x : Int256) : (formatDec x).length ≤ 79 := by
  unfold formatDec
  split
  · decide
  · have sign := signText_length_le x.neg
    have digits : (renderChunks (chunks x.mag)).length ≤ 78 :=
      renderChunks_chunkLoop_length_le 9 [] (x.mag.isLt.trans (by decide))
    rw [List.length_append]
    omega

/-! ### Responses -/

theorem Int256.zero_canonical : Int256.zero.canonical := fun _ => rfl

theorem Response.zero_txt_get (i : Nat) (h : i < 79) : Response.zero.txt[i] = 0 := by
  simp only [Response.zero, Vector.getElem_mk, List.getElem_toArray, List.getElem_replicate]

theorem ordCode_ne_two (o : Ordering) : ordCode o ≠ 0b10 := by
  cases o <;> decide

/-- A response without text is well shaped if its value and its ordering code are. -/
theorem Response.wellShaped_of_no_text {r : Response} (hv : r.val.canonical) (ho : r.ord ≠ 0b10)
    (hl : r.txtLen = 0) (ht : r.txt = Response.zero.txt) : r.WellShaped where
  canonical := hv
  ordCode := ho
  length := by rw [hl]; decide
  padding i h _ := by simp only [ht, Response.zero_txt_get]

theorem Response.ofValue_wellShaped {v : Int256} (hv : v.canonical) (d : Diag) :
    (Response.ofValue v d).WellShaped :=
  wellShaped_of_no_text hv (by rw [Response.ofValue_ord]; decide) rfl rfl

theorem Response.ofOrd_wellShaped (o : Ordering) : (Response.ofOrd o).WellShaped :=
  wellShaped_of_no_text Int256.zero_canonical (ordCode_ne_two o) rfl rfl

theorem Response.ofFlag_wellShaped (z : Bool) : (Response.ofFlag z).WellShaped :=
  wellShaped_of_no_text Int256.zero_canonical (by rw [Response.ofFlag_ord]; decide) rfl rfl

theorem Response.illegal_wellShaped : Response.illegal.WellShaped :=
  wellShaped_of_no_text Int256.zero_canonical (by decide) rfl rfl

/-- A text that fits the buffer is recorded with its own length. -/
theorem Response.ofText_txtLen_toNat {t : List Byte} (ht : t.length ≤ 79) :
    (Response.ofText t).txtLen.toNat = t.length := by
  rw [Response.ofText_txtLen, BitVec.toNat_ofNat, Nat.mod_eq_of_lt (by omega)]

theorem Response.ofText_wellShaped {t : List Byte} (ht : t.length ≤ 79) :
    (Response.ofText t).WellShaped where
  canonical := Int256.zero_canonical
  ordCode := by rw [Response.ofText_ord]; decide
  length := by rwa [Response.ofText_txtLen_toNat ht]
  padding i h hi := by
    rw [Response.ofText_txtLen_toNat ht] at hi
    exact (textBuffer_get t i h).trans (List.getD_eq_default _ _ hi)

/-- Each operation answers in the shape its row of R43 gives. -/
theorem exec_wellShaped (i : Instr) (s : State) : (responseOf (exec i s)).WellShaped := by
  cases i with
  | iszero => exact Response.ofFlag_wellShaped _
  | cmpmag | cmp => exact Response.ofOrd_wellShaped _
  | fmthex => exact Response.ofText_wellShaped ((formatHex_length_le _).trans (by decide))
  | fmtdec => exact Response.ofText_wellShaped (formatDec_length_le _)
  | abs => exact Response.ofValue_wellShaped (fun _ => rfl) _
  | neg | mul | and | or | xor | shl | shr => exact Response.ofValue_wellShaped (canon_canonical _ _) _
  | add | sub => exact Response.ofValue_wellShaped (addSigned_canonical _ _) _
  | div => exact Response.ofValue_wellShaped (divSigned_canonical _ _) _
  | mod => exact Response.ofValue_wellShaped (modSigned_canonical s.opA_canonical _) _

end Sys2Proof.Machine
end

section
/-!
SUPPORT. Two states a host cannot tell apart (10_state.md R23, R26) stay so along every edge, and so do the
runs from them.
-/

namespace Sys2Proof.Machine

namespace State.SameSeen

variable {s t : State}

theorem hostHolds_iff (h : s.SameSeen t) : s.HostHolds ↔ t.HostHolds := by
  rw [State.HostHolds, State.HostHolds, h.offer, h.pins]

theorem standingOffer (h : s.SameSeen t) : s.standingOffer = t.standingOffer := by
  rw [State.standingOffer, State.standingOffer, h.pins]

theorem drive (h : s.SameSeen t) (p : PortIn) : (s.drive p).SameSeen (t.drive p) :=
  ⟨h.phase, rfl, h.offer, h.draws, h.req, h.latency, h.rsp⟩

theorem waitEdge (h : s.SameSeen t) : s.waitEdge.SameSeen t.waitEdge :=
  ⟨h.phase, h.pins, h.standingOffer, congrArg (· + 1) h.draws, h.req, h.latency, h.rsp⟩

theorem busyEdge (h : s.SameSeen t) (n : Nat) : (s.busyEdge n).SameSeen (t.busyEdge n) :=
  ⟨h.phase, h.pins, h.standingOffer, congrArg (· + 1) h.draws, h.req, fun _ => rfl, h.rsp⟩

/-- Neither the latched contents nor the latency outlive an edge with `rst` asserted. -/
theorem resetEdge (h : s.SameSeen t) : s.resetEdge.SameSeen t.resetEdge :=
  ⟨rfl, h.pins, h.standingOffer, congrArg (· + 1) h.draws, fun hp => (nomatch hp), fun _ => rfl,
    fun hp => (nomatch hp)⟩

/-- `accept` overwrites `REQ` and draws the latency from the offered request (log entry 2). -/
theorem accept (h : s.SameSeen t) : s.accept.SameSeen t.accept :=
  ⟨rfl, h.pins, rfl, congrArg (· + 1) h.draws, fun _ => congrArg PortIn.req h.pins,
    fun _ => congrArg₂ Config.latency h.draws (congrArg PortIn.req h.pins), fun hp => (nomatch hp)⟩

/-- After `take` neither record can be read. -/
theorem take (h : s.SameSeen t) : s.take.SameSeen t.take :=
  ⟨rfl, h.pins, h.standingOffer, congrArg (· + 1) h.draws, fun hp => (nomatch hp), fun hp => (nomatch hp),
    fun hp => (nomatch hp)⟩

/-- `execute` overwrites `RSP` from `REQ`, which agrees in `BUSY`. -/
theorem executed (h : s.SameSeen t) (hp : s.phase = .busy) :
    State.SameSeen { s.sampled with phase := .done, rsp := respond s.req }
      { t.sampled with phase := .done, rsp := respond t.req } :=
  ⟨rfl, h.pins, h.standingOffer, h.draws, fun hb => (nomatch hb), fun hb => (nomatch hb),
    fun _ => congrArg respond (h.req hp)⟩

theorem reqReady_eq (h : s.SameSeen t) : s.reqReady = t.reqReady := by
  rw [State.reqReady, State.reqReady, h.phase, h.pins]

theorem rspValid_eq (h : s.SameSeen t) : s.rspValid = t.rspValid := by
  rw [State.rspValid, State.rspValid, h.phase, h.pins]

theorem accepting_eq (h : s.SameSeen t) : s.accepting = t.accepting := by
  rw [State.accepting, State.accepting, h.reqReady_eq, h.pins]

theorem taking_eq (h : s.SameSeen t) : s.taking = t.taking := by
  rw [State.taking, State.taking, h.rspValid_eq, h.pins]

/-- While the response is valid the host reads the same one. -/
theorem outputs_rsp_eq (h : s.SameSeen t) (hv : s.rspValid = true) : s.outputs.rsp = t.outputs.rsp := by
  rw [State.outputs_rsp, State.outputs_rsp, if_pos hv, if_pos (h.rspValid_eq ▸ hv)]
  exact h.rsp (s.rspValid_iff.mp hv).1

/-- At every clock edge both states do the same step of R19, or both are refused. -/
theorem step_cases (h : s.SameSeen t) :
    (∃ s' t', step s = .next s' ∧ step t = .next t' ∧ s'.SameSeen t') ∨
    (step s = .refused .hostBrokeHandshake ∧ step t = .refused .hostBrokeHandshake) := by
  by_cases hh : s.HostHolds
  case neg =>
    exact .inr ⟨step_of_broken_handshake hh, step_of_broken_handshake (mt h.hostHolds_iff.mpr hh)⟩
  have hh' := h.hostHolds_iff.mp hh
  have hpins := h.pins
  have hphase := h.phase
  refine .inl ?_
  cases hr : s.pins.rst with
  | true => exact ⟨_, _, step_of_rst hh hr, step_of_rst hh' (hpins ▸ hr), h.resetEdge⟩
  | false =>
    have hr' : t.pins.rst = false := hpins ▸ hr
    cases hp : s.phase with
    | idle =>
      have hp' := hphase ▸ hp
      cases hv : s.pins.reqValid with
      | true =>
        exact ⟨_, _, step_of_accept hh hr hp hv, step_of_accept hh' hr' hp' (hpins ▸ hv), h.accept⟩
      | false =>
        exact ⟨_, _, step_of_idle_wait hh hr hp hv, step_of_idle_wait hh' hr' hp' (hpins ▸ hv), h.waitEdge⟩
    | busy =>
      have hp' := hphase ▸ hp
      have hlatency := h.latency hp
      cases hl : s.latency with
      | zero =>
        refine ⟨_, _, ?_, ?_, h.executed hp⟩
        · rw [step_of_execute hh hr hp hl, execute_eq_complete, State.complete_eq]
        · rw [step_of_execute hh' hr' hp' (hlatency ▸ hl), execute_eq_complete, State.complete_eq]
      | succ n =>
        exact ⟨_, _, step_of_busy_wait hh hr hp hl, step_of_busy_wait hh' hr' hp' (hlatency ▸ hl),
          h.busyEdge n⟩
    | done =>
      have hp' := hphase ▸ hp
      cases hy : s.pins.rspReady with
      | true => exact ⟨_, _, step_of_take hh hr hp hy, step_of_take hh' hr' hp' (hpins ▸ hy), h.take⟩
      | false =>
        exact ⟨_, _, step_of_done_wait hh hr hp hy, step_of_done_wait hh' hr' hp' (hpins ▸ hy), h.waitEdge⟩

end State.SameSeen

namespace Run

theorem edge_of_next {p : PortIn} {r : Run} {t : State} (h : step (r.state.drive p) = .next t) :
    r.edge p = some (r.record (r.state.drive p) t) := by
  simp only [Run.edge, h]

theorem edge_of_refused {p : PortIn} {r : Run} {e : Refusal} (h : step (r.state.drive p) = .refused e) :
    r.edge p = none := by
  simp only [Run.edge, h]

theorem SameSeen.record {r q : Run} {s t s' t' : State} (h : r.SameSeen q) (hs : s.SameSeen t)
    (hs' : s'.SameSeen t') : (r.record s s').SameSeen (q.record t t') where
  state := hs'
  accepted := by
    rw [Run.record, Run.record, hs.accepting_eq, hs.pins, h.accepted]
  taken := by
    have same := hs.taking_eq
    cases ht : s.taking with
    | false => simp [Run.record, ← same, ht, h.taken]
    | true =>
      have valid : s.rspValid = true := (Bool.and_eq_true_iff.mp ht).1
      simp [Run.record, ← same, ht, h.taken, hs.outputs_rsp_eq valid]

/-- An edge at which the host drives the same levels keeps two such runs alike, or stops both. -/
theorem SameSeen.edge_cases {r q : Run} (h : r.SameSeen q) (p : PortIn) :
    (∃ r' q', r.edge p = some r' ∧ q.edge p = some q' ∧ r'.SameSeen q') ∨
    (r.edge p = none ∧ q.edge p = none) := by
  have driven := h.state.drive p
  obtain ⟨s', t', hs, ht, next⟩ | ⟨hs, ht⟩ := driven.step_cases
  · exact .inl ⟨_, _, edge_of_next hs, edge_of_next ht, h.record driven next⟩
  · exact .inr ⟨edge_of_refused hs, edge_of_refused ht⟩

/-- Driven with the same levels, two such runs accept the same requests and take the same responses. -/
theorem SameSeen.edges_seen (ps : List PortIn) {r q : Run} (h : r.SameSeen q) :
    (Run.edges ps r).map (fun x => (x.accepted, x.taken)) =
      (Run.edges ps q).map (fun x => (x.accepted, x.taken)) := by
  induction ps generalizing r q with
  | nil => simp only [Run.edges, Option.map_some, h.accepted, h.taken]
  | cons p ps ih =>
    obtain ⟨r', q', hr, hq, h'⟩ | ⟨hr, hq⟩ := h.edge_cases p
    · simpa only [Run.edges, hr, hq, Option.bind_some] using ih h'
    · simp only [Run.edges, hr, hq, Option.bind_none]

end Run

/-- What `REQ` and `RSP` hold in `IDLE` cannot be read (R26). -/
theorem State.reset_sameSeen (q : Request) (p : Response) :
    State.SameSeen { State.reset with req := q, rsp := p } State.reset :=
  ⟨rfl, rfl, rfl, rfl, fun h => (nomatch h), fun _ => rfl, fun h => (nomatch h)⟩

end Sys2Proof.Machine
end

section
/-! The statements of 10_state.md, settled. -/

namespace Sys2Proof.Machine

/-- Settles O5: at the edge that executes, `step` is `execute`, which runs the decoded operation. -/
theorem stepRunsDecodedOperation : Obligations.StepRunsDecodedOperation := by
  intro s i hp hl hr hh hd
  rw [step_of_execute hh hr hp hl, execute_of_ok hd]
  rfl

/-- Settles O6: a ready block is idle with `rst` low, so the edge is `accept`. -/
theorem acceptLatchesOfferedRequest : Obligations.AcceptLatchesOfferedRequest := by
  intro s hh hready hv
  obtain ⟨hp, hr⟩ := s.reqReady_iff.mp hready
  exact ⟨hp, step_of_accept hh hr hp hv⟩

/-- Settles O7: a valid response is held in `DONE` with `rst` low, so the edge is `take`. -/
theorem takeReturnsToIdle : Obligations.TakeReturnsToIdle := by
  intro s hh hvalid hy
  obtain ⟨hp, hr⟩ := s.rspValid_iff.mp hvalid
  exact ⟨hp, step_of_take hh hr hp hy⟩

/-- Settles O10: the outputs follow the phase, which is `IDLE`. -/
theorem resetStateIsIdle : Obligations.ResetStateIsIdle :=
  ⟨rfl, State.reset.reqReady_iff.mpr ⟨rfl, rfl⟩, rfl⟩

/-- Settles O15: the invariant speaks of `DONE` only. -/
theorem resetHasResponseOfRequest : Obligations.ResetHasResponseOfRequest :=
  fun done => (nomatch done)

/-- Settles O17: every operation completes, with a response computed from its operands alone. -/
theorem operationReadsRequestOnly : Obligations.OperationReadsRequestOnly := by
  intro i s t hreq
  have same : responseOf (exec i s) = responseOf (exec i t) :=
    responseOf_exec_congr i (State.opA_congr hreq) (State.opB_congr hreq)
  refine ⟨responseOf (exec i s), exec_eq_complete i s, ?_⟩
  rw [same]
  exact exec_eq_complete i t

/-- Settles O18: a response depends on the operands through `canon` alone. -/
theorem negativeZeroIsReadAsZero : Obligations.NegativeZeroIsReadAsZero := fun r =>
  respond_congr rfl (canon_of_zero_replaced r.a).symm (canon_of_zero_replaced r.b).symm

/-- Settles O16: a reserved word is answered by ILLEGAL_OP, any other word by its operation. -/
theorem everyResponseIsWellShaped : Obligations.EveryResponseIsWellShaped := by
  intro r
  cases h : decode r.cmd with
  | ok i => exact respond_of_ok h ▸ exec_wellShaped i _
  | error e => exact respond_of_error h ▸ Response.illegal_wellShaped

/-- Settles O20: both states do the same step, and it leaves them indistinguishable. -/
theorem unreadableFieldsStayUnseen : Obligations.UnreadableFieldsStayUnseen := by
  intro s t h
  refine ⟨⟨h.reqReady_eq, h.rspValid_eq, h.outputs_rsp_eq⟩, ?_⟩
  obtain ⟨s', t', hs, ht, next⟩ | ⟨hs, ht⟩ := h.step_cases
  · simp only [hs, ht]
    refine ⟨fun u hu => ?_, fun e he => nomatch he⟩
    cases hu
    exact ⟨t', rfl, next⟩
  · simp only [hs, ht]
    exact ⟨fun u hu => (nomatch hu), fun e he => he⟩

/-- Settles O21, by the simulation of O20 along the run. -/
theorem resetContentsAreNeverSeen : Obligations.ResetContentsAreNeverSeen := by
  intro q p ins
  have start : (Run.start { State.reset with req := q, rsp := p }).SameSeen (Run.start State.reset) :=
    ⟨State.reset_sameSeen q p, rfl, rfl⟩
  exact start.edges_seen ins

end Sys2Proof.Machine
end

section
/-!
SUPPORT. The invariant of a run in which responses come in request order (20_memory.md R35): what the block
has accepted is what it has answered, followed by what it still owes, at most one response.
-/

namespace Sys2Proof.Machine

/-- The response a transaction in flight is owed: one outside `IDLE`, that of the latched request (R35). -/
def State.owed (s : State) : List Response := if s.phase = .idle then [] else [respond s.req]

/-- The request the edge about to come accepts, if it does. -/
def State.acceptedNow (s : State) : List Request := if s.accepting then [s.pins.req] else []

/-- The response the edge about to come takes, if it does. -/
def State.takenNow (s : State) : List Response := if s.taking then [s.outputs.rsp] else []

/-- The requests accepted are answered one for one and in order, the last one perhaps not yet. -/
structure Run.InOrder (r : Run) : Prop where
  inv : r.state.Inv
  answered : r.accepted.map respond = r.taken ++ r.state.owed

end Sys2Proof.Machine
end

section
/-!
SUPPORT. `State.Inv` is kept by every step (70_reset_and_hazards.md R175), and an edge without `rst` moves
responses from those owed to those taken (20_memory.md R35, 70_reset_and_hazards.md R178).
-/

namespace Sys2Proof.Machine

variable {s t : State}

/-! ### A valid response is `exec` of the latched request -/

theorem State.inv_of_not_done (hp : s.phase ≠ .done) : s.Inv := fun done => absurd done hp

theorem State.Inv.drive (h : s.Inv) (p : PortIn) : (s.drive p).Inv := h

theorem State.Inv.waitEdge (h : s.Inv) : s.waitEdge.Inv := h

/-- `execute`: `RSP <- exec(REQ) ; phase <- DONE`, `REQ` staying latched (R19). -/
theorem execute_next (h : execute s = .next t) :
    t = { s.sampled with phase := .done, rsp := respond s.req } :=
  State.complete_next (execute_eq_complete s ▸ h)

/-- `execute` writes the response the invariant names; every other edge leaves `DONE` or keeps both records. -/
theorem step_preserves_inv (hi : s.Inv) (h : step s = .next t) : t.Inv := by
  obtain ⟨-, ⟨-, rfl⟩ | ⟨-, edge⟩⟩ := step_next_cases h
  · exact State.inv_of_not_done (by simp)
  · obtain ⟨-, -, rfl⟩ | ⟨-, -, rfl⟩ | ⟨n, hp, -, rfl⟩ | ⟨-, -, hx⟩ | ⟨-, -, rfl⟩ | ⟨-, -, rfl⟩ := edge
    · exact State.inv_of_not_done (by simp)
    · exact hi.waitEdge
    · exact State.inv_of_not_done (by simp [hp])
    · exact execute_next hx ▸ fun _ => rfl
    · exact State.inv_of_not_done (by simp)
    · exact hi.waitEdge

/-! ### What an edge accepts, takes and leaves owed -/

@[simp] theorem State.drive_owed (p : PortIn) (s : State) : (s.drive p).owed = s.owed := rfl
@[simp] theorem State.accept_owed (s : State) : s.accept.owed = [respond s.pins.req] := rfl
@[simp] theorem State.waitEdge_owed (s : State) : s.waitEdge.owed = s.owed := rfl
@[simp] theorem State.busyEdge_owed (n : Nat) (s : State) : (s.busyEdge n).owed = s.owed := rfl
@[simp] theorem State.take_owed (s : State) : s.take.owed = [] := rfl

theorem State.owed_of_idle (hp : s.phase = .idle) : s.owed = [] := if_pos hp

theorem State.owed_of_not_idle (hp : s.phase ≠ .idle) : s.owed = [respond s.req] := if_neg hp

/-- `execute` computes the response without handing it over. -/
theorem execute_owed (hp : s.phase = .busy) (h : execute s = .next t) : t.owed = s.owed := by
  rw [execute_next h, State.owed_of_not_idle (s := s) (by simp [hp])]
  rfl

theorem State.acceptedNow_of_idle (hp : s.phase = .idle) (hr : s.pins.rst = false) :
    s.acceptedNow = if s.pins.reqValid then [s.pins.req] else [] := by
  simp [State.acceptedNow, State.accepting_iff, hp, hr]

theorem State.acceptedNow_of_not_idle (hp : s.phase ≠ .idle) : s.acceptedNow = [] := by
  simp [State.acceptedNow, State.accepting_iff, hp]

/-- What is taken is the response owed, which by the invariant is what `RSP` holds. -/
theorem State.takenNow_of_done (hi : s.Inv) (hp : s.phase = .done) (hr : s.pins.rst = false) :
    s.takenNow = if s.pins.rspReady then s.owed else [] := by
  have valid : s.rspValid = true := s.rspValid_iff.mpr ⟨hp, hr⟩
  simp [State.takenNow, State.taking, State.outputs_rsp, valid, hi hp, State.owed, hp]

theorem State.takenNow_of_not_done (hp : s.phase ≠ .done) : s.takenNow = [] := by
  simp [State.takenNow, State.taking_iff, hp]

/-- An edge without `rst` neither loses nor duplicates a response: those owed before it and those of the
request it accepts are those it takes and those owed after it (R35, R178). -/
theorem step_conserves_owed (hi : s.Inv) (hr : s.pins.rst = false) (h : step s = .next t) :
    s.owed ++ s.acceptedNow.map respond = s.takenNow ++ t.owed := by
  obtain ⟨-, ⟨hr', -⟩ | ⟨-, edge⟩⟩ := step_next_cases h
  · exact absurd (hr.symm.trans hr') Bool.false_ne_true
  cases hp : s.phase with
  | idle =>
    rw [State.owed_of_idle hp, State.acceptedNow_of_idle hp hr, State.takenNow_of_not_done (by simp [hp])]
    obtain ⟨hv, rfl⟩ | ⟨hv, rfl⟩ : (s.pins.reqValid = true ∧ t = s.accept) ∨
        (s.pins.reqValid = false ∧ t = s.waitEdge) := by simpa [hp] using edge
    · simp [hv]
    · simp [hv, State.owed_of_idle hp]
  | busy =>
    have kept : t.owed = s.owed := by
      obtain ⟨n, -, rfl⟩ | ⟨-, hx⟩ : (∃ n, s.latency = n + 1 ∧ t = s.busyEdge n) ∨
          (s.latency = 0 ∧ execute s = .next t) := by simpa [hp] using edge
      · exact s.busyEdge_owed n
      · exact execute_owed hp hx
    simp [State.acceptedNow_of_not_idle, State.takenNow_of_not_done, hp, kept]
  | done =>
    rw [State.acceptedNow_of_not_idle (by simp [hp]), State.takenNow_of_done hi hp hr]
    obtain ⟨hy, rfl⟩ | ⟨hy, rfl⟩ : (s.pins.rspReady = true ∧ t = s.take) ∨
        (s.pins.rspReady = false ∧ t = s.waitEdge) := by simpa [hp] using edge
    · simp [hy]
    · simp [hy]

end Sys2Proof.Machine
end

section
/-!
SUPPORT. Induction along a run (`Run.edges`), and what one edge adds to its history; hence a run without
`rst` stays in order.
-/

namespace Sys2Proof.Machine.Run

variable {r r' : Run}

theorem record_accepted (r : Run) (s t : State) :
    (r.record s t).accepted = r.accepted ++ s.acceptedNow := by
  cases h : s.accepting <;> simp [record, State.acceptedNow, h]

theorem record_taken (r : Run) (s t : State) : (r.record s t).taken = r.taken ++ s.takenNow := by
  cases h : s.taking <;> simp [record, State.takenNow, h]

/-- An edge of a run is a step that answers a next state, recorded. -/
theorem edge_next {p : PortIn} (h : r.edge p = some r') :
    ∃ t, step (r.state.drive p) = .next t ∧ r' = r.record (r.state.drive p) t := by
  cases hs : step (r.state.drive p) with
  | next t =>
    rw [edge_of_next hs, Option.some.injEq] at h
    exact ⟨t, rfl, h.symm⟩
  | fault f => exact nomatch f
  | refused e => simp [edge_of_refused hs] at h

/-- What every edge at the levels driven keeps holds at the end of a run if it holds at its start. -/
theorem edges_preserve {P : Run → Prop} (ps : List PortIn)
    (edge : ∀ p ∈ ps, ∀ r r', P r → r.edge p = some r' → P r') (start : P r)
    (h : Run.edges ps r = some r') : P r' := by
  induction ps generalizing r with
  | nil => exact Option.some.inj h ▸ start
  | cons p ps ih =>
    obtain ⟨q, hq, hrest⟩ := Option.bind_eq_some_iff.mp h
    exact ih (fun p' hp' => edge p' (.tail p hp')) (edge p (.head ps) r q start hq) hrest

theorem inOrder_start {s : State} (hp : s.phase = .idle) : (Run.start s).InOrder where
  inv := State.inv_of_not_done (by simp [Run.start, hp])
  answered := (State.owed_of_idle hp).symm

/-- An edge without `rst` appends to both histories what `step_conserves_owed` balances. -/
theorem InOrder.edge {p : PortIn} (h : r.InOrder) (hr : p.rst = false) (he : r.edge p = some r') :
    r'.InOrder := by
  obtain ⟨t, hs, rfl⟩ := edge_next he
  have driven : (r.state.drive p).Inv := h.inv.drive p
  refine ⟨step_preserves_inv driven hs, ?_⟩
  have conserved := step_conserves_owed driven hr hs
  rw [State.drive_owed] at conserved
  rw [record_accepted, record_taken, List.map_append, h.answered, List.append_assoc, conserved,
    List.append_assoc]
  rfl

end Sys2Proof.Machine.Run
end

section
/-! The statements of 20_memory.md, settled. -/

namespace Sys2Proof.Machine

/-- Settles O22: a run from an idle state starts in order, and edges without `rst` keep it so. -/
theorem responsesComeInRequestOrder : Obligations.ResponsesComeInRequestOrder := by
  intro s ins r hp hrst hrun
  have inOrder : r.InOrder :=
    Run.edges_preserve ins (fun p hmem _ _ h he => h.edge (hrst p hmem) he) (Run.inOrder_start hp) hrun
  exact inOrder.answered

end Sys2Proof.Machine
end

section
/-!
SUPPORT. The command word (30_encoding.md R40, R45 to R47): its three fields, the opcode map read both ways,
and which words decode to which operation.
-/

namespace Sys2Proof

/-! ### Fields -/

theorem opcField_toNat (w : CmdWord) : (opcField w).toNat = w.toNat % 2 ^ 8 := by
  simp [opcField]

theorem rsvField_toNat (w : CmdWord) : (rsvField w).toNat = w.toNat / 2 ^ 8 % 2 ^ 8 := by
  simp [rsvField, Nat.shiftRight_eq_div_pow]

theorem cntField_toNat (w : CmdWord) : (cntField w).toNat = w.toNat / 2 ^ 16 := by
  have := w.isLt
  simp only [cntField, BitVec.extractLsb'_toNat, Nat.shiftRight_eq_div_pow]
  omega

/-- The three fields make up the whole word (R40). -/
theorem eq_of_fields_eq {v w : CmdWord} (hopc : opcField v = opcField w) (hrsv : rsvField v = rsvField w)
    (hcnt : cntField v = cntField w) : v = w := by
  have opc := congrArg BitVec.toNat hopc
  have rsv := congrArg BitVec.toNat hrsv
  have cnt := congrArg BitVec.toNat hcnt
  rw [opcField_toNat, opcField_toNat] at opc
  rw [rsvField_toNat, rsvField_toNat] at rsv
  rw [cntField_toNat, cntField_toNat] at cnt
  apply BitVec.eq_of_toNat_eq
  omega

/-! ### Operations as rows of the opcode table -/

/-- Formats U and B carry no count: the field is zero (R40). -/
theorem Instr.count_eq_zero_of_format_ne_S {i : Instr} (h : i.format ≠ .S) : i.count = 0 := by
  cases i with
  | shl | shr => exact absurd rfl h
  | _ => rfl

theorem Instr.format_eq_S_iff (i : Instr) : i.format = .S ↔ i.opcode = 0x10 ∨ i.opcode = 0x11 := by
  cases i with
  | shl | shr => simp [Instr.format, Instr.opcode]
  | _ => decide

theorem Instr.wellFormed_iff (i : Instr) : i.wellFormed = true ↔ i.count < 2 ^ 16 := by
  cases i with
  | shl | shr => exact decide_eq_true_iff
  | _ => decide

/-- The opcode map of R45, read both ways: the opcode selects the row, and the shifts take the count. -/
theorem decodeOpcode_eq_some_iff {opc : BitVec 8} {cnt : BitVec 16} {i : Instr} :
    decodeOpcode opc cnt = some i ↔ opc = i.opcode ∧ (i.format = .S → cnt.toNat = i.count) := by
  constructor
  · intro h
    unfold decodeOpcode at h
    split at h
    case h_18 => cases h
    all_goals
      next hopc =>
      cases h
      exact ⟨BitVec.eq_of_toNat_eq hopc, by simp [Instr.format, Instr.count]⟩
  · rintro ⟨rfl, hcnt⟩
    cases i with
    | shl | shr => exact congrArg _ (congrArg _ (hcnt rfl))
    | _ => rfl

/-- The opcodes that R45 leaves out (R47). -/
theorem decodeOpcode_eq_none_iff {opc : BitVec 8} {cnt : BitVec 16} :
    decodeOpcode opc cnt = none ↔ opc.toNat = 0 ∨ 0x12 ≤ opc.toNat := by
  unfold decodeOpcode
  split
  case h_18 => simp only [imp_false, true_iff] at *; omega
  all_goals
    next h => simp [h]

/-! ### Decoding -/

theorem decode_of_rsvField_ne_zero {w : CmdWord} (hrsv : rsvField w ≠ 0) :
    decode w = .error .reservedByte := if_pos hrsv

theorem decode_of_decodeOpcode_none {w : CmdWord} (hrsv : rsvField w = 0)
    (hop : decodeOpcode (opcField w) (cntField w) = none) : decode w = .error .unknownOpcode := by
  simp only [decode, hrsv, hop, ne_eq, not_true_eq_false, if_false]

theorem decode_of_decodeOpcode_some {w : CmdWord} {i : Instr} (hrsv : rsvField w = 0)
    (hop : decodeOpcode (opcField w) (cntField w) = some i) :
    decode w = if i.format ≠ .S ∧ cntField w ≠ 0 then .error .strayCount else .ok i := by
  simp only [decode, hrsv, hop, ne_eq, not_true_eq_false, if_false]

/-- What `decode` reads: the reserved byte is zero, the opcode is the operation's, and so is the count, which
outside format S is zero (R44, R45, R47). -/
theorem decode_eq_ok_iff {w : CmdWord} {i : Instr} :
    decode w = .ok i ↔ opcField w = i.opcode ∧ rsvField w = 0 ∧ (cntField w).toNat = i.count := by
  constructor
  · intro h
    by_cases hrsv : rsvField w = 0
    case neg => exact nomatch (decode_of_rsvField_ne_zero hrsv).symm.trans h
    cases hop : decodeOpcode (opcField w) (cntField w) with
    | none => exact nomatch (decode_of_decodeOpcode_none hrsv hop).symm.trans h
    | some j =>
      rw [decode_of_decodeOpcode_some hrsv hop] at h
      split_ifs at h with stray
      cases h
      obtain ⟨hopc, hcnt⟩ := decodeOpcode_eq_some_iff.mp hop
      refine ⟨hopc, hrsv, ?_⟩
      by_cases hf : i.format = .S
      · exact hcnt hf
      · have hzero : cntField w = 0 := by_contra fun hc => stray ⟨hf, hc⟩
        rw [hzero, Instr.count_eq_zero_of_format_ne_S hf]
        rfl
  · rintro ⟨hopc, hrsv, hcnt⟩
    have hop : decodeOpcode (opcField w) (cntField w) = some i :=
      decodeOpcode_eq_some_iff.mpr ⟨hopc, fun _ => hcnt⟩
    rw [decode_of_decodeOpcode_some hrsv hop, if_neg]
    rintro ⟨hf, hc⟩
    exact hc (BitVec.eq_of_toNat_eq (hcnt.trans (Instr.count_eq_zero_of_format_ne_S hf)))

/-- The reserved words by their fields (R47). -/
theorem decode_eq_error_iff {w : CmdWord} :
    (∃ e, decode w = .error e) ↔
      rsvField w ≠ 0 ∨ decodeOpcode (opcField w) (cntField w) = none ∨
        (opcField w ≠ 0x10 ∧ opcField w ≠ 0x11 ∧ cntField w ≠ 0) := by
  by_cases hrsv : rsvField w = 0
  case neg => exact iff_of_true ⟨_, decode_of_rsvField_ne_zero hrsv⟩ (.inl hrsv)
  cases hop : decodeOpcode (opcField w) (cntField w) with
  | none => exact iff_of_true ⟨_, decode_of_decodeOpcode_none hrsv hop⟩ (.inr (.inl rfl))
  | some i =>
    have stray : i.format ≠ .S ∧ cntField w ≠ 0 ↔
        opcField w ≠ 0x10 ∧ opcField w ≠ 0x11 ∧ cntField w ≠ 0 := by
      rw [(decodeOpcode_eq_some_iff.mp hop).1, ne_eq, i.format_eq_S_iff, not_or, and_assoc]
    rw [decode_of_decodeOpcode_some hrsv hop, ← stray]
    split_ifs with h
    · exact iff_of_true ⟨_, rfl⟩ (.inr (.inr h))
    · refine iff_of_false (fun ⟨_, he⟩ => nomatch he) ?_
      rintro (hne | hnone | hstray)
      · exact hne hrsv
      · cases hnone
      · exact h hstray

/-! ### Encoding -/

/-- The decoder reads from the word of an operation the fields written there (R40, R45). -/
theorem decode_encode {i : Instr} (h : i.count < 2 ^ 16) : decode (encode i) = .ok i :=
  decode_eq_ok_iff.mpr (Laws.encode_fields i h)

/-- Only the word of an operation decodes to it (R47). -/
theorem encode_of_decode {w : CmdWord} {i : Instr} (h : decode w = .ok i) :
    i.count < 2 ^ 16 ∧ encode i = w := by
  obtain ⟨hopc, hrsv, hcnt⟩ := decode_eq_ok_iff.mp h
  have fits : i.count < 2 ^ 16 := hcnt ▸ (cntField w).isLt
  obtain ⟨hopc', hrsv', hcnt'⟩ := Laws.encode_fields i fits
  exact ⟨fits, eq_of_fields_eq (hopc'.trans hopc.symm) (hrsv'.trans hrsv.symm)
    (BitVec.eq_of_toNat_eq (hcnt'.trans hcnt.symm))⟩

end Sys2Proof
end

section
/-!
SUPPORT. The comparator as an order on numbers (40_value_ops.md R63, R64).
-/

namespace Sys2Proof.Machine

theorem cmpmag_eq_compare (x y : Mag) : cmpmag x y = compare x.toNat y.toNat := by
  obtain ⟨h, hlt⟩ | ⟨h, hlt⟩ | ⟨h, heq⟩ := cmpmag_cases x y
  · rw [h, compare_gt_iff_gt.mpr hlt]
  · rw [h, compare_lt_iff_lt.mpr hlt]
  · rw [h, compare_eq_iff_eq.mpr heq]

theorem Int256.toInt_of_neg (m : Mag) : (⟨true, m⟩ : Int256).toInt = -(m.toNat : Int) := rfl

theorem Int256.canonical.toInt_lt_zero {m : Mag} (h : (⟨true, m⟩ : Int256).canonical) :
    (⟨true, m⟩ : Int256).toInt < 0 := by
  have : m.toNat ≠ 0 := fun h0 => nomatch h (BitVec.eq_of_toNat_eq h0)
  rw [Int256.toInt_of_neg]
  omega

/-- The signed comparator orders canonical values as the integers they denote: a negative value is not zero,
so differing signs decide. -/
theorem cmpSigned_eq_compare {a b : Int256} (ha : a.canonical) (hb : b.canonical) :
    cmpSigned a b = compare a.toInt b.toInt := by
  obtain ⟨sa, ma⟩ := a
  obtain ⟨sb, mb⟩ := b
  match sa, sb with
  | false, false =>
    have mono : StrictMono ((↑) : Nat → Int) := Nat.strictMono_cast
    calc cmpSigned ⟨false, ma⟩ ⟨false, mb⟩
      _ = compare ma.toNat mb.toNat := cmpmag_eq_compare ma mb
      _ = compare (ma.toNat : Int) mb.toNat := by
        rw [← cmp_eq_compare, ← cmp_eq_compare, mono.cmp_map_eq]
  | false, true =>
    have hneg := hb.toInt_lt_zero
    exact (compare_gt_iff_gt.mpr (hneg.trans_le (Int.natCast_nonneg _))).symm
  | true, false =>
    have hneg := ha.toInt_lt_zero
    exact (compare_lt_iff_lt.mpr (hneg.trans_le (Int.natCast_nonneg _))).symm
  | true, true =>
    have anti : StrictAnti fun n : Nat => -(n : Int) := Nat.strictMono_cast.neg
    calc cmpSigned ⟨true, ma⟩ ⟨true, mb⟩
      _ = (compare ma.toNat mb.toNat).swap := congrArg Ordering.swap (cmpmag_eq_compare ma mb)
      _ = compare (-(ma.toNat : Int)) (-(mb.toNat : Int)) := by
        rw [← cmp_eq_compare, ← cmp_eq_compare, anti.cmp_map_eq, cmp_swap]

/-- What CMP answers: the ordering of the integers its operands denote (R64). -/
theorem responseOf_exec_cmp (s : State) :
    responseOf (exec .cmp s) = .ofOrd (compare s.req.a.toInt s.req.b.toInt) := by
  rw [← s.opA_toInt, ← s.opB_toInt, ← cmpSigned_eq_compare s.opA_canonical s.opB_canonical]
  rfl

/-- The code `ord`, read in two's complement, is the sign of the difference (R17, R49). -/
theorem ordCode_toInt_compare (x y : Int) : (ordCode (compare x y)).toInt = (x - y).sign := by
  obtain h | rfl | h := lt_trichotomy x y
  · rw [compare_lt_iff_lt.mpr h, Int.sign_eq_neg_one_of_neg (Int.sub_neg_of_lt h)]; rfl
  · rw [compare_eq_iff_eq.mpr rfl, Int.sub_self]; rfl
  · rw [compare_gt_iff_gt.mpr h, Int.sign_eq_one_of_pos (Int.sub_pos_of_lt h)]; rfl

end Sys2Proof.Machine
end

section
/-! SUPPORT. What the block answers to the word of an operation, and what formats U and S read of it
(30_encoding.md R41, R42, R44). -/

namespace Sys2Proof.Machine

/-- Operations of formats U and S read operand `A` alone. -/
theorem responseOf_exec_of_format_ne_B {i : Instr} {s t : State} (hf : i.format ≠ .B)
    (hA : s.opA = t.opA) : responseOf (exec i s) = responseOf (exec i t) := by
  cases i with
  | iszero | neg | abs | fmthex | fmtdec | shl | shr =>
    simp only [exec, execIszero, execNeg, execAbs, execFmthex, execFmtdec, execShl, execShr,
      responseOf_complete, hA]
  | _ => exact absurd rfl hf

/-- What the block answers to the command word of an operation (R44). -/
theorem respond_encode {i : Instr} (h : i.wellFormed = true) (a b : Int256) :
    respond ⟨encode i, a, b⟩ = responseOf (exec i (State.holding ⟨encode i, a, b⟩)) :=
  respond_of_ok (decode_encode (i.wellFormed_iff.mp h))

end Sys2Proof.Machine
end

section
/-! The statements of 30_encoding.md, settled. -/

namespace Sys2Proof.Machine

/-- Settles O1, by evaluating the decoder on each word. -/
theorem decodeOfWrittenWords : Obligations.DecodeOfWrittenWords := by
  unfold Obligations.DecodeOfWrittenWords
  decide

/-- Settles O2: the fields of the word written are those the decoder reads. -/
theorem decodeOfEncode : Obligations.DecodeOfEncode := fun i h =>
  decode_encode (i.wellFormed_iff.mp h)

/-- Settles O3: a word that decodes has the fields of the word of its operation, and its count is one of 16
bits. -/
theorem encodeOfDecode : Obligations.EncodeOfDecode := by
  intro w i h
  obtain ⟨fits, word⟩ := encode_of_decode h
  exact ⟨word, i.wellFormed_iff.mpr fits⟩

/-- Settles O4: the reserved words by their fields as numbers, and the `execute` step with one. -/
theorem reservedWordsCompleteAsIllegal : Obligations.ReservedWordsCompleteAsIllegal := by
  constructor
  · intro w
    rw [decode_eq_error_iff, decodeOpcode_eq_none_iff, ← cntField_toNat, ← rsvField_toNat, ← opcField_toNat,
      or_assoc]
    simp only [ne_eq, ← BitVec.toNat_inj]
    rfl
  · intro s e hp hl hr hh hd
    rw [step_of_execute hh hr hp hl, execute_of_error hd]
    rfl

/-- Settles O19: the word decodes to its operation, which reads operand `A` alone. -/
theorem unreadOperandHasNoEffect : Obligations.UnreadOperandHasNoEffect := by
  intro i a b b' h hf
  rw [respond_encode h, respond_encode h]
  exact responseOf_exec_of_format_ne_B hf rfl

/-- Settles O53: CMP orders the canonicalised operands as the integers they denote, and `ord` is the code of
the sign of their difference. -/
theorem cmpReceivesSign : Obligations.CmpReceivesSign := by
  intro a b
  rw [respond_encode rfl, responseOf_exec_cmp]
  exact congrArg HostValue.ordering (ordCode_toInt_compare a.toInt b.toInt)

end Sys2Proof.Machine
end

section
/-!
SUPPORT. What the value operations and the comparator answer (40_value_ops.md R60 to R64), in terms of the
operands as the host offered them.
-/

namespace Sys2Proof.Machine

/-- An operation completes with its response and changes no other field of the state (R19). -/
theorem exec_eq_next {i : Instr} {s : State} {r : Response} (h : responseOf (exec i s) = r) :
    exec i s = .next { s with phase := .done, rsp := r } := by
  rw [exec_eq_complete, h, State.complete_eq]

/-- Negating what `canon` reads is reading the opposite sign: zero stays positive either way (R61). -/
theorem negate_canon (n : Bool) (m : Mag) : negate (canon n m) = canon (!n) m := by
  by_cases h : m = 0
  · rw [h, canon_zero, canon_zero]; rfl
  · simp only [negate, canon, h, if_false]

/-- The magnitude comparator is the signed one on positive values, so it orders them as integers (R63). -/
theorem cmpmag_eq_compare_int (x y : Mag) : cmpmag x y = compare (x.toNat : Int) y.toNat :=
  cmpSigned_eq_compare (a := ⟨false, x⟩) (b := ⟨false, y⟩) (fun _ => rfl) (fun _ => rfl)

/-- The code `ord` of the ordering of two integers (R17, R63). -/
theorem ordCode_compare (x y : Int) : ordCode (compare x y) = ordBits x y := by
  unfold ordBits
  obtain h | rfl | h := lt_trichotomy x y
  · rw [compare_lt_iff_lt.mpr h, if_neg h.ne, if_neg h.not_gt]; rfl
  · rw [compare_eq_iff_eq.mpr rfl, if_pos rfl]; rfl
  · rw [compare_gt_iff_gt.mpr h, if_neg h.ne', if_pos h]; rfl

theorem Response.ofOrd_compare (x y : Int) :
    Response.ofOrd (compare x y) = { Response.zero with ord := ordBits x y } := by
  rw [Response.ofOrd, ordCode_compare]

/-- What ISZERO answers: the zero flag of the magnitude offered (R60). -/
theorem responseOf_exec_iszero (s : State) :
    responseOf (exec .iszero s) = .ofFlag (decide (s.req.a.mag = 0)) := by
  rw [← s.opA_mag]
  rfl

/-- What NEG answers: the opposite sign, through `canon` (R61). -/
theorem responseOf_exec_neg (s : State) :
    responseOf (exec .neg s) = .ofValue (canon (!s.req.a.neg) s.req.a.mag) .none := by
  rw [← negate_canon]
  rfl

/-- What ABS answers: the magnitude offered, positive (R62). -/
theorem responseOf_exec_abs (s : State) :
    responseOf (exec .abs s) = .ofValue ⟨false, s.req.a.mag⟩ .none := by
  rw [← s.opA_mag]
  rfl

/-- What CMPMAG answers: the ordering of the magnitudes offered (R63). -/
theorem responseOf_exec_cmpmag (s : State) :
    responseOf (exec .cmpmag s) = .ofOrd (compare (s.req.a.mag.toNat : Int) s.req.b.mag.toNat) := by
  rw [← cmpmag_eq_compare_int, ← s.opA_mag, ← s.opB_mag]
  rfl

end Sys2Proof.Machine
end

section
/-! The statements of 40_value_ops.md, settled. -/

namespace Sys2Proof.Machine

/-- Settles O28: limb by limb comparison is the order of the magnitudes as integers. -/
theorem cmpmagOrdersMagnitudes : Obligations.CmpmagOrdersMagnitudes :=
  ⟨decode_encode (i := .cmpmag) (by decide), fun s =>
    exec_eq_next ((responseOf_exec_cmpmag s).trans (Response.ofOrd_compare _ _))⟩

/-- Settles O29: the signed comparator orders canonical operands as the integers they denote, and `canon`
keeps the integer. -/
theorem cmpOrdersValues : Obligations.CmpOrdersValues :=
  ⟨decode_encode (i := .cmp) (by decide), fun s =>
    exec_eq_next ((responseOf_exec_cmp s).trans (Response.ofOrd_compare _ _))⟩

/-- Settles O25: `canon` keeps the magnitude, and the flag looks at nothing else. -/
theorem iszeroTestsMagnitude : Obligations.IszeroTestsMagnitude :=
  ⟨decode_encode (i := .iszero) (by decide), fun s => exec_eq_next (responseOf_exec_iszero s)⟩

/-- Settles O26: the opposite sign through `canon`, which is positive at zero. -/
theorem negFlipsSignUnlessZero : Obligations.NegFlipsSignUnlessZero :=
  ⟨decode_encode (i := .neg) (by decide), fun s => exec_eq_next (responseOf_exec_neg s)⟩

/-- Settles O27: `canon` keeps the magnitude, and the sign is fixed. -/
theorem absForcesPositive : Obligations.AbsForcesPositive :=
  ⟨decode_encode (i := .abs) (by decide), fun s => exec_eq_next (responseOf_exec_abs s)⟩

end Sys2Proof.Machine
end

section
/-!
SUPPORT. The digit strings of the formatters (41_format.md R70 to R73) are the digits `Nat.digits` gives, most
significant first: `fixedDigits` after the digits of a number appends low digits to it, `dropZeros` makes it the
number alone, and the chunk loop gives the digits in base 10⁹.
-/

namespace Sys2Proof.Machine

theorem toNat_ne_zero {w : Nat} {x : BitVec w} (h : x ≠ 0) : x.toNat ≠ 0 :=
  fun h0 => h (BitVec.eq_of_toNat_eq h0)

/-! ### Digits in any base -/

theorem digits_reverse_append_digit {b n d : Nat} (hb : 1 < b) (hn : n ≠ 0) (hd : d < b) :
    (Nat.digits b n).reverse ++ [d] = (Nat.digits b (n * b + d)).reverse := by
  rw [Nat.mul_comm, Nat.add_comm, Nat.digits_add b hb d n hd (.inr hn), List.reverse_cons]

theorem digits_reverse_append_fixedDigits {b n : Nat} (v w : Nat) (hb : 1 < b) (hn : n ≠ 0) :
    (Nat.digits b n).reverse ++ fixedDigits b v w = (Nat.digits b (n * b ^ w + v % b ^ w)).reverse := by
  induction w generalizing n with
  | zero => simp [fixedDigits, Nat.mod_one]
  | succ w ih =>
    have hd : v / b ^ w % b < b := Nat.mod_lt _ (by omega)
    have hn' : n * b + v / b ^ w % b ≠ 0 := by positivity
    calc (Nat.digits b n).reverse ++ fixedDigits b v (w + 1)
      _ = (Nat.digits b n).reverse ++ [v / b ^ w % b] ++ fixedDigits b v w := by
        rw [fixedDigits, List.append_assoc, List.singleton_append]
      _ = (Nat.digits b ((n * b + v / b ^ w % b) * b ^ w + v % b ^ w)).reverse := by
        rw [digits_reverse_append_digit hb hn hd, ih hn']
      _ = (Nat.digits b (n * b ^ (w + 1) + v % b ^ (w + 1))).reverse := by
        rw [Nat.mod_pow_succ]; ring_nf

/-- Without the leading zeros the `w` low digits of `v` are those of `v % b ^ w`. -/
theorem dropZeros_fixedDigits {b : Nat} (v w : Nat) (hb : 1 < b) :
    dropZeros (fixedDigits b v w) = (Nat.digits b (v % b ^ w)).reverse := by
  induction w with
  | zero => simp [fixedDigits, dropZeros, Nat.mod_one]
  | succ w ih =>
    have hd : v / b ^ w % b < b := Nat.mod_lt _ (by omega)
    by_cases lead : v / b ^ w % b = 0
    · calc dropZeros (fixedDigits b v (w + 1))
        _ = dropZeros (fixedDigits b v w) := by simp [fixedDigits, lead, dropZeros]
        _ = (Nat.digits b (v % b ^ (w + 1))).reverse := by
          rw [ih, Nat.mod_pow_succ, lead, Nat.mul_zero, Nat.add_zero]
    · calc dropZeros (fixedDigits b v (w + 1))
        _ = (Nat.digits b (v / b ^ w % b)).reverse ++ fixedDigits b v w := by
          simp [fixedDigits, lead, dropZeros, Nat.digits_of_lt b _ lead hd]
        _ = (Nat.digits b (v % b ^ (w + 1))).reverse := by
          rw [digits_reverse_append_fixedDigits v w hb lead, Nat.mod_pow_succ, Nat.mul_comm, Nat.add_comm]

theorem head?_reverse_digits (b n : Nat) : (Nat.digits b n).reverse.head? ≠ some 0 := by
  intro h
  rw [List.head?_reverse, List.getLast?_eq_some_iff] at h
  obtain ⟨ds, hds⟩ := h
  have hn : n ≠ 0 := Nat.digits_ne_nil_iff_ne_zero (b := b).mp (by simp [hds])
  exact Nat.getLast_digit_ne_zero b hn (by simp [hds])

/-- A number whose leading digit in a positive base is not zero is not zero. -/
theorem ofDigits_reverse_cons_ne_zero {B c : Nat} (cs : List Nat) (hB : B ≠ 0) (hc : c ≠ 0) :
    Nat.ofDigits B (c :: cs).reverse ≠ 0 := by
  rw [Nat.ofDigits_reverse_cons]
  positivity

/-- Digits in base `b ^ w`, each written with exactly `w` digits of base `b` but for the leading one, are the
digits in base `b` (R71, R72). -/
theorem digits_reverse_append_chunks {b w c : Nat} {cs : List Nat} (hb : 1 < b) (hc : c ≠ 0)
    (hcs : ∀ x ∈ cs, x < b ^ w) :
    (Nat.digits b c).reverse ++ (cs.map (fixedDigits b · w)).flatten =
      (Nat.digits b (Nat.ofDigits (b ^ w) (c :: cs).reverse)).reverse := by
  induction cs using List.reverseRecOn with
  | nil => simp
  | append_singleton cs x ih =>
    have hx : x < b ^ w := hcs x (by simp)
    have pos := ofDigits_reverse_cons_ne_zero cs (B := b ^ w) (by positivity) hc
    rw [List.map_append, List.flatten_append, ← List.append_assoc,
      ih fun y hy => hcs y (List.mem_append_left _ hy), List.map_singleton, List.flatten_singleton,
      digits_reverse_append_fixedDigits x w hb pos, Nat.mod_eq_of_lt hx, ← List.cons_append,
      List.reverse_append, List.reverse_singleton, List.singleton_append, Nat.ofDigits_cons, Nat.mul_comm,
      Nat.add_comm]

/-- The text of such a number: the leading chunk without its leading zeros, the others with them. -/
theorem map_digit_chunks {b w c : Nat} {cs : List Nat} (digit : Nat → Byte) (hb : 1 < b) (hc : c ≠ 0)
    (hcs : ∀ x ∈ c :: cs, x < b ^ w) :
    (dropZeros (fixedDigits b c w)).map digit ++ (cs.map fun x => (fixedDigits b x w).map digit).flatten =
      (Nat.digits b (Nat.ofDigits (b ^ w) (c :: cs).reverse)).reverse.map digit := by
  obtain ⟨hlead, hrest⟩ := List.forall_mem_cons.mp hcs
  rw [← digits_reverse_append_chunks hb hc hrest, dropZeros_fixedDigits c w hb, Nat.mod_eq_of_lt hlead,
    List.map_append, List.map_flatten, List.map_map]
  rfl

/-! ### The chunks of the decimal formatter -/

/-- The loop of R72 puts the base-10⁹ digits before the chunks it already has, if the fuel suffices. -/
theorem chunkLoop_eq_digits (fuel : Nat) {m : Mag} (cs : List Nat) (hm : m.toNat < (10 ^ 9) ^ fuel) :
    chunkLoop fuel m cs = (Nat.digits (10 ^ 9) m.toNat).reverse ++ cs := by
  induction fuel generalizing m cs with
  | zero =>
    have zero : m.toNat = 0 := by omega
    simp [chunkLoop, zero]
  | succ fuel ih =>
    rw [chunkLoop]
    split
    · next h => simp [h]
    · next h =>
      have quotient : (chunkStep m).1.toNat < (10 ^ 9) ^ fuel := by
        rw [chunkStep_fst_toNat]
        exact Nat.div_lt_of_lt_mul (by rwa [← Nat.pow_succ'])
      rw [ih _ quotient, chunkStep_fst_toNat, chunkStep_snd,
        Nat.digits_eq_cons_digits_div (n := m.toNat) (by decide) (toNat_ne_zero h), List.reverse_cons,
        List.append_assoc, List.singleton_append]

/-- Nine chunks hold every magnitude (log entry 8). -/
theorem chunks_eq_digits (m : Mag) : chunks m = (Nat.digits (10 ^ 9) m.toNat).reverse := by
  rw [chunks, chunkLoop_eq_digits 9 [] (m.isLt.trans (by decide)), List.append_nil]

theorem ofDigits_chunks (m : Mag) : Nat.ofDigits (10 ^ 9) (chunks m).reverse = m.toNat := by
  rw [chunks_eq_digits, List.reverse_reverse, Nat.ofDigits_digits]

theorem chunks_lt {m : Mag} {c : Nat} (h : c ∈ chunks m) : c < 10 ^ 9 := by
  rw [chunks_eq_digits, List.mem_reverse] at h
  exact Nat.digits_lt_base (by decide) h

theorem chunks_head?_ne_zero (m : Mag) : (chunks m).head? ≠ some 0 := by
  rw [chunks_eq_digits]
  exact head?_reverse_digits _ _

theorem chunks_length_le (m : Mag) : (chunks m).length ≤ 9 := by
  rw [chunks_eq_digits, List.length_reverse, Nat.digits_length_le_iff (by decide)]
  exact m.isLt.trans (by decide)

/-- Reading digits from the most significant one on. -/
theorem foldl_eq_ofDigits_reverse (B : Nat) (cs : List Nat) :
    cs.foldl (fun n c => n * B + c) 0 = Nat.ofDigits B cs.reverse := by
  rw [Nat.ofDigits_eq_foldr, List.foldr_reverse]
  simp only [Nat.cast_id, Nat.mul_comm, Nat.add_comm]

end Sys2Proof.Machine
end

section
/-!
SUPPORT. The texts of FMTHEX and FMTDEC (41_format.md R71, R72): a sign, then the numeral of the magnitude.
-/

namespace Sys2Proof.Machine

/-! ### Characters and numerals -/

theorem hexChars_getD {d : Nat} (hd : d < 16) : hexChars.getD d 0 = hexDigit d := by
  revert d; decide

theorem decDigit_eq_hexDigit {d : Nat} (hd : d < 10) : decDigit d = hexDigit d := (if_pos hd).symm

theorem hexNumeral_of_ne_zero {n : Nat} (hn : n ≠ 0) :
    hexNumeral n = (Nat.digits 16 n).reverse.map hexDigit := by
  rw [hexNumeral, if_neg hn]
  refine List.map_congr_left fun d hd => ?_
  exact hexChars_getD (Nat.digits_lt_base (by decide) (List.mem_reverse.mp hd))

theorem decNumeral_of_ne_zero {n : Nat} (hn : n ≠ 0) :
    decNumeral n = (Nat.digits 10 n).reverse.map decDigit := by
  rw [decNumeral, if_neg hn]
  refine List.map_congr_left fun d hd => ?_
  have hd : d < 10 := Nat.digits_lt_base (by decide) (List.mem_reverse.mp hd)
  rw [hexChars_getD (by omega), decDigit_eq_hexDigit hd]

/-- A decimal numeral, the `0` of zero included, is a string of decimal digits that denotes its number. -/
theorem decNumeral_eq_map (n : Nat) :
    ∃ ds : List Nat, (∀ d ∈ ds, d < 10) ∧ Nat.ofDigits 10 ds.reverse = n ∧
      decNumeral n = ds.map decDigit := by
  obtain rfl | hn := eq_or_ne n 0
  · exact ⟨[0], by decide, rfl, rfl⟩
  · refine ⟨(Nat.digits 10 n).reverse, fun d hd => ?_, ?_, decNumeral_of_ne_zero hn⟩
    · exact Nat.digits_lt_base (by decide) (List.mem_reverse.mp hd)
    · rw [List.reverse_reverse, Nat.ofDigits_digits]

/-! ### Hexadecimal: a limb is a chunk of sixteen digits -/

theorem limb_lt_pow (l : Limb) : l.toNat < 16 ^ 16 := l.isLt

theorem hexMin_eq_hexNumeral (l : Limb) : hexMin l = hexNumeral l.toNat := by
  unfold hexMin
  split
  · next h => rw [h]; rfl
  · next h =>
    rw [hexNumeral_of_ne_zero (toNat_ne_zero h), dropZeros_fixedDigits _ _ (by decide),
      Nat.mod_eq_of_lt (limb_lt_pow l)]

theorem hexMin_append_hex16 {l : Limb} (hl : l ≠ 0) (ls : List Limb) :
    hexMin l ++ (ls.map hex16).flatten =
      hexNumeral (Nat.ofDigits (16 ^ 16) ((l :: ls).map BitVec.toNat).reverse) := by
  have small : ∀ c ∈ l.toNat :: ls.map BitVec.toNat, c < 16 ^ 16 := by
    rw [← List.map_cons, List.forall_mem_map]
    exact fun l _ => limb_lt_pow l
  rw [List.map_cons, hexNumeral_of_ne_zero (ofDigits_reverse_cons_ne_zero _ (by decide) (toNat_ne_zero hl)),
    ← map_digit_chunks hexDigit (by decide) (toNat_ne_zero hl) small, hexMin, if_neg hl, List.map_map]
  rfl

theorem hexLimbs_eq_hexNumeral {ls : List Limb} (hne : ls ≠ []) :
    hexLimbs ls = hexNumeral (Nat.ofDigits (16 ^ 16) (ls.map BitVec.toNat).reverse) := by
  induction ls using hexLimbs.induct with
  | case1 => exact absurd rfl hne
  | case2 l => simp [hexLimbs, hexMin_eq_hexNumeral]
  | case3 ls hls ih =>
    rw [hexLimbs, if_pos rfl, ih hls, List.map_cons]
    · exact congrArg hexNumeral (Nat.ofDigits_reverse_zero_cons _).symm
    · exact hls
  | case4 l ls hls hl =>
    rw [hexLimbs, if_neg hl, hexMin_append_hex16 hl]
    exact hls

theorem ofDigits_four (B a b c d : Nat) :
    Nat.ofDigits B [d, c, b, a] = ((a * B + b) * B + c) * B + d := by
  simp only [Nat.ofDigits_cons, Nat.ofDigits_nil]
  ring

theorem ofDigits_limbs (m : Mag) :
    Nat.ofDigits (16 ^ 16) ([limb m 0, limb m 1, limb m 2, limb m 3].map BitVec.toNat).reverse = m.toNat :=
  (ofDigits_four _ _ _ _ _).trans (toNat_limbs m).symm

/-- What FMTHEX writes (R71). -/
theorem formatHex_eq (x : Int256) :
    formatHex x = signText x.neg ++ [0x30, 0x78] ++ hexNumeral x.mag.toNat := by
  rw [formatHex, hexLimbs_eq_hexNumeral (List.cons_ne_nil _ _), ofDigits_limbs]

/-! ### Decimal: chunks of nine digits -/

theorem renderChunks_cons {c : Nat} {cs : List Nat} (hc : c ≠ 0) (hcs : ∀ x ∈ c :: cs, x < 10 ^ 9) :
    renderChunks (c :: cs) = decNumeral (Nat.ofDigits (10 ^ 9) (c :: cs).reverse) := by
  rw [decNumeral_of_ne_zero (ofDigits_reverse_cons_ne_zero cs (by decide) hc),
    ← map_digit_chunks decDigit (by decide) hc hcs]
  rfl

theorem renderChunks_chunks {m : Mag} (hm : m ≠ 0) : renderChunks (chunks m) = decNumeral m.toNat := by
  have value := ofDigits_chunks m
  have lead := chunks_head?_ne_zero m
  have small : ∀ c ∈ chunks m, c < 10 ^ 9 := fun _ => chunks_lt
  cases h : chunks m with
  | nil =>
    rw [h] at value
    exact absurd value.symm (toNat_ne_zero hm)
  | cons c cs =>
    rw [h] at value lead small
    rw [renderChunks_cons (by simpa using lead) small, value]

/-- What FMTDEC writes of a canonical value (R72). -/
theorem formatDec_eq {x : Int256} (hx : x.canonical) :
    formatDec x = signText x.neg ++ decNumeral x.mag.toNat := by
  unfold formatDec
  split
  · next h => rw [hx h, h]; rfl
  · next h => rw [renderChunks_chunks h]

/-! ### The text of a response -/

theorem signText_canon (neg : Bool) (m : Mag) :
    signText (canon neg m).neg = if neg = true ∧ m ≠ 0 then [0x2D] else [] := by
  simp [signText, minusSign, canon_neg]

/-- A host reads back from the buffer the text the operation wrote, if it fits (R17, R32). -/
theorem Response.ofText_text {t : List Byte} (ht : t.length ≤ 79) : (Response.ofText t).text = t := by
  rw [Response.text, ofText_txtLen_toNat ht]
  refine List.ext_getElem (by simp [ht]) fun i hi hi' => ?_
  have byte := textBuffer_get t i (by omega)
  simpa [hi'] using byte

theorem respond_fmtdec_text (a b : Int256) :
    (respond ⟨encode .fmtdec, a, b⟩).text = formatDec (canon a.neg a.mag) := by
  rw [respond_encode rfl]
  exact Response.ofText_text (formatDec_length_le _)

end Sys2Proof.Machine
end

section
/-!
SUPPORT. PARSE (47_host_procedures.md R131, R132) of a decimal numeral with an optional minus sign: the
accumulate step is exact with its carry, so the digit loop gives the number's low 256 bits, and loses a carry
exactly when the number does not fit.
-/

namespace Sys2Proof.Machine

/-! ### The accumulate step -/

theorem mulCarry_spec (l : Limb) (base carry : Nat) :
    (mulCarry l base carry).2 * 2 ^ 64 + (mulCarry l base carry).1.toNat = l.toNat * base + carry := by
  simp only [mulCarry, BitVec.toNat_ofNat]
  omega

theorem accumulate_spec (m : Mag) (base d : Nat) :
    (accumulate m base d).2 * 2 ^ 256 + (accumulate m base d).1.toNat = m.toNat * base + d := by
  have h3 := mulCarry_spec (limb m 3) base d
  have h2 := mulCarry_spec (limb m 2) base (mulCarry (limb m 3) base d).2
  have h1 := mulCarry_spec (limb m 1) base (mulCarry (limb m 2) base (mulCarry (limb m 3) base d).2).2
  have h0 := mulCarry_spec (limb m 0) base
    (mulCarry (limb m 1) base (mulCarry (limb m 2) base (mulCarry (limb m 3) base d).2).2).2
  rw [toNat_limbs m]
  simp only [accumulate, ofLimbs_toNat]
  linear_combination 2 ^ 192 * h0 + 2 ^ 128 * h1 + 2 ^ 64 * h2 + h3

/-! ### Digit characters -/

theorem decDigit_toNat {d : Nat} (hd : d < 10) : (decDigit d).toNat = 0x30 + d := by
  rw [decDigit, BitVec.toNat_ofNat]
  omega

theorem decDigit_ne {d : Nat} (hd : d < 10) {c : Byte} (hc : c.toNat < 0x30 ∨ 0x39 < c.toNat) :
    decDigit d ≠ c := by
  rintro rfl
  rw [decDigit_toNat hd] at hc
  omega

theorem digitOf_decDigit (hexLower : Bool) {d : Nat} (hd : d < 10) :
    digitOf hexLower 10 (decDigit d) = some d := by
  have upper : 0x30 + d ≤ 0x39 := by omega
  simp [digitOf, decDigit_toNat hd, hd, upper]

/-! ### The digit loop -/

/-- A carry lost at one step stays visible: the digits that follow only scale it. -/
theorem carry_or_overflow {carry scale x : Nat} (hscale : 0 < scale) :
    (carry != 0 || decide (2 ^ 256 ≤ x)) = decide (2 ^ 256 ≤ 2 ^ 256 * (carry * scale) + x) := by
  obtain rfl | hc := Nat.eq_zero_or_pos carry
  · simp
  · have scaled : 0 < carry * scale := Nat.mul_pos hc hscale
    rw [bne_iff_ne.mpr hc.ne', Bool.true_or, decide_eq_true (by omega)]

theorem parseDigits_decDigits (hexLower : Bool) {ds : List Nat} (hds : ∀ d ∈ ds, d < 10) (m : Mag)
    (lost : Bool) :
    parseDigits hexLower 10 (ds.map decDigit) m lost =
      (BitVec.ofNat 256 (m.toNat * 10 ^ ds.length + Nat.ofDigits 10 ds.reverse),
        lost || decide (2 ^ 256 ≤ m.toNat * 10 ^ ds.length + Nat.ofDigits 10 ds.reverse), []) := by
  induction ds generalizing m lost with
  | nil => simp [parseDigits, m.isLt]
  | cons d ds ih =>
    obtain ⟨hd, hds⟩ := List.forall_mem_cons.mp hds
    have step := accumulate_spec m 10 d
    simp only [List.map_cons, parseDigits, digitOf_decDigit hexLower hd, ih hds]
    generalize (accumulate m 10 d).1 = m' at step ⊢
    generalize (accumulate m 10 d).2 = carry at step ⊢
    have value : m.toNat * 10 ^ (d :: ds).length + Nat.ofDigits 10 (d :: ds).reverse =
        2 ^ 256 * (carry * 10 ^ ds.length) + (m'.toNat * 10 ^ ds.length + Nat.ofDigits 10 ds.reverse) := by
      rw [Nat.ofDigits_reverse_cons, List.length_cons]
      linear_combination 10 ^ ds.length * step.symm
    have low (x y : Nat) : BitVec.ofNat 256 (2 ^ 256 * x + y) = BitVec.ofNat 256 y :=
      BitVec.eq_of_toNat_eq (by simp only [BitVec.toNat_ofNat, Nat.mul_add_mod])
    rw [value, low, Bool.or_assoc, carry_or_overflow (scale := 10 ^ ds.length) (by positivity)]

/-! ### Sign, base and whitespace -/

variable {p : ParseParams} {ds : List Nat}

theorem takeSign_signText (neg : Bool) (hds : ∀ d ∈ ds, d < 10) :
    takeSign (signText neg ++ ds.map decDigit) = (neg, ds.map decDigit) := by
  cases neg with
  | true => rfl
  | false =>
    cases ds with
    | nil => rfl
    | cons d ds =>
      have hd := hds d (.head _)
      simp [signText, takeSign, decDigit_ne hd]

/-- No digit string names a base: the second character would be a letter. -/
theorem takePrefix_decDigits (hds : ∀ d ∈ ds, d < 10) :
    takePrefix (ds.map decDigit) = (10, ds.map decDigit) := by
  match ds with
  | [] | [_] => rfl
  | _ :: e :: ds =>
    have he := hds e (.tail _ (.head _))
    simp [takePrefix, decDigit_ne he]

theorem takeBase_decDigits (p : ParseParams) (hds : ∀ d ∈ ds, d < 10) :
    p.takeBase (ds.map decDigit) = (10, ds.map decDigit) := by
  rw [ParseParams.takeBase, takePrefix_decDigits hds, ite_self]

theorem ParseParams.isSpace_eq_false {c : Byte} (hc : c ≠ 0x20) (hp : c ∉ p.moreWhitespace) :
    p.isSpace c = false := by
  simpa [isSpace, hp] using hc

theorem skip_signText (neg : Bool) (hds : ∀ d ∈ ds, d < 10)
    (hsign : neg = true → p.isSpace minusSign = false) (hdigit : ∀ d < 10, p.isSpace (decDigit d) = false) :
    p.skip (signText neg ++ ds.map decDigit) = signText neg ++ ds.map decDigit := by
  cases neg with
  | true => simp [ParseParams.skip, signText, hsign rfl]
  | false =>
    cases ds with
    | nil => rfl
    | cons d ds => simp [ParseParams.skip, signText, hdigit d (hds d (.head _))]

/-! ### The whole text -/

/-- PARSE of an optional minus sign and a string of decimal digits (R131, R132). -/
theorem parse_decimal (neg : Bool) (hds : ∀ d ∈ ds, d < 10)
    (hsign : neg = true → p.isSpace minusSign = false) (hdigit : ∀ d < 10, p.isSpace (decDigit d) = false) :
    parse p (signText neg ++ ds.map decDigit) =
      ⟨canon neg (BitVec.ofNat 256 (Nat.ofDigits 10 ds.reverse)), false,
        p.overflowSignal && decide (2 ^ 256 ≤ Nat.ofDigits 10 ds.reverse)⟩ := by
  simp only [parse, skip_signText neg hds hsign hdigit, takeSign_signText neg hds, takeBase_decDigits p hds,
    parseDigits_decDigits _ hds]
  simp [ParseParams.skip]

theorem parse_formatDec {x : Int256} (hx : x.canonical) (hsign : p.isSpace minusSign = false)
    (hdigit : ∀ d < 10, p.isSpace (decDigit d) = false) : parse p (formatDec x) = ⟨x, false, false⟩ := by
  obtain ⟨ds, hds, value, text⟩ := decNumeral_eq_map x.mag.toNat
  rw [formatDec_eq hx, text, parse_decimal x.neg hds (fun _ => hsign) hdigit, value,
    decide_eq_false x.mag.isLt.not_ge, Bool.and_false, BitVec.ofNat_toNat, BitVec.setWidth_eq, hx.canon_self]

end Sys2Proof.Machine
end

section
/-! The statements of 41_format.md, settled. -/

namespace Sys2Proof.Machine

/-- Settles O48: the chunks are the digits in base 10⁹, reversed. -/
theorem chunksAreBaseBillionDigits : Obligations.ChunksAreBaseBillionDigits := fun m =>
  ⟨(foldl_eq_ofDigits_reverse _ _).trans (ofDigits_chunks m), fun _ => chunks_lt, chunks_head?_ne_zero m,
    chunks_length_le m⟩

/-- Settles O30: the limbs, sixteen digits each, make up the hexadecimal numeral. -/
theorem fmthexWritesHexNumeral : Obligations.FmthexWritesHexNumeral := by
  refine ⟨decode_encode (i := .fmthex) (by decide), fun s => ?_⟩
  have short := formatHex_length_le s.opA
  refine ⟨formatHex s.opA, .ofText (formatHex s.opA), ?_, short,
    Response.ofText_txtLen_toNat (short.trans (by decide)), textBuffer_get _, exec_eq_next rfl⟩
  rw [formatHex_eq, s.opA_mag, State.opA, signText_canon]

/-- Settles O31: the chunks, nine digits each, make up the decimal numeral. -/
theorem fmtdecWritesDecimalNumeral : Obligations.FmtdecWritesDecimalNumeral := by
  refine ⟨decode_encode (i := .fmtdec) (by decide), fun s => ?_⟩
  have short := formatDec_length_le s.opA
  refine ⟨formatDec s.opA, .ofText (formatDec s.opA), ?_, short, Response.ofText_txtLen_toNat short,
    textBuffer_get _, exec_eq_next rfl⟩
  rw [formatDec_eq s.opA_canonical, s.opA_mag, State.opA, signText_canon]

/-- Settles O54: FMTDEC writes a sign and a string of decimal digits, which PARSE reads back without a carry,
the magnitude being below 2²⁵⁶. -/
theorem parseUndoesFmtdec : Obligations.ParseUndoesFmtdec := by
  intro p a b hp
  have sign : p.isSpace minusSign = false :=
    ParseParams.isSpace_eq_false (by decide) fun h => (hp _ h).1 rfl
  have digit (d : Nat) (hd : d < 10) : p.isSpace (decDigit d) = false := by
    refine ParseParams.isSpace_eq_false (decDigit_ne hd (by decide)) fun h => (hp _ h).2 ?_
    rw [decDigit_toNat hd]
    omega
  rw [respond_fmtdec_text]
  exact parse_formatDec (canon_canonical _ _) sign digit

end Sys2Proof.Machine
end

section
/-!
SUPPORT. The carry chain and the borrow chain (42_add_sub.md R80, R81), each with what leaves limb 0, the most
significant.
-/

namespace Sys2Proof.Machine

theorem adc64_of_eq {x y l : Limb} {cin cout : Bool} (h : adc64 x y cin = (l, cout)) :
    l.toNat + cout.toNat * 2 ^ 64 = x.toNat + y.toNat + cin.toNat := by
  have spec := adc64_spec x y cin
  rwa [h] at spec

theorem sbb64_of_eq {x y l : Limb} {bin bout : Bool} (h : sbb64 x y bin = (l, bout)) :
    (l.toNat : Int) - bout.toNat * 2 ^ 64 = (x.toNat : Int) - y.toNat - bin.toNat := by
  have spec := sbb64_spec x y bin
  rwa [h] at spec

/-- Sum and carry out together are the sum (R80): each limb hands its carry to the next. -/
theorem addmag_spec (x y : Mag) :
    (addmag x y).1.toNat + (addmag x y).2.toNat * 2 ^ 256 = x.toNat + y.toNat := by
  rcases e3 : adc64 (limb x 3) (limb y 3) false with ⟨s3, c3⟩
  rcases e2 : adc64 (limb x 2) (limb y 2) c3 with ⟨s2, c2⟩
  rcases e1 : adc64 (limb x 1) (limb y 1) c2 with ⟨s1, c1⟩
  rcases e0 : adc64 (limb x 0) (limb y 0) c1 with ⟨s0, c0⟩
  have chain : addmag x y = (ofLimbs s0 s1 s2 s3, c0) := by simp only [addmag, e3, e2, e1, e0]
  have lowest := adc64_of_eq e3
  rw [Bool.toNat_false] at lowest
  rw [chain, ofLimbs_toNat, toNat_limbs x, toNat_limbs y]
  linear_combination 2 ^ 192 * adc64_of_eq e0 + 2 ^ 128 * adc64_of_eq e1 + 2 ^ 64 * adc64_of_eq e2 + lowest

theorem addmag_fst_toNat (x y : Mag) : (addmag x y).1.toNat = (x.toNat + y.toNat) % 2 ^ 256 := by
  have := addmag_spec x y
  have := (addmag x y).1.isLt
  omega

theorem addmag_snd_toNat (x y : Mag) : (addmag x y).2.toNat = (x.toNat + y.toNat) / 2 ^ 256 := by
  have := addmag_spec x y
  have := (addmag x y).1.isLt
  omega

/-- The carry out says that the sum does not fit (R80). -/
theorem addmag_snd (x y : Mag) : (addmag x y).2 = decide (2 ^ 256 ≤ x.toNat + y.toNat) := by
  have carry := addmag_snd_toNat x y
  cases h : (addmag x y).2 with
  | false =>
    rw [h, Bool.toNat_false] at carry
    exact (decide_eq_false (by omega)).symm
  | true =>
    rw [h, Bool.toNat_true] at carry
    exact (decide_eq_true (by omega)).symm

/-- The difference, less the borrow that leaves the chain, is the exact difference (R81). -/
theorem submag_spec (x y : Mag) :
    ∃ borrow : Bool, ((submag x y).toNat : Int) - borrow.toNat * 2 ^ 256 = x.toNat - y.toNat := by
  rcases e3 : sbb64 (limb x 3) (limb y 3) false with ⟨d3, b3⟩
  rcases e2 : sbb64 (limb x 2) (limb y 2) b3 with ⟨d2, b2⟩
  rcases e1 : sbb64 (limb x 1) (limb y 1) b2 with ⟨d1, b1⟩
  rcases e0 : sbb64 (limb x 0) (limb y 0) b1 with ⟨d0, b0⟩
  have chain : submag x y = ofLimbs d0 d1 d2 d3 := by simp only [submag, e3, e2, e1, e0]
  have lowest := sbb64_of_eq e3
  rw [Bool.toNat_false] at lowest
  refine ⟨b0, ?_⟩
  rw [chain, ofLimbs_toNat, toNat_limbs x, toNat_limbs y]
  push_cast at lowest ⊢
  linear_combination 2 ^ 192 * sbb64_of_eq e0 + 2 ^ 128 * sbb64_of_eq e1 + 2 ^ 64 * sbb64_of_eq e2 + lowest

/-- Where `x ≥ y` nothing is borrowed in the end (R81). -/
theorem submag_toNat {x y : Mag} (h : y.toNat ≤ x.toNat) : (submag x y).toNat = x.toNat - y.toNat := by
  obtain ⟨borrow, spec⟩ := submag_spec x y
  have := (submag x y).isLt
  have := x.isLt
  omega

end Sys2Proof.Machine
end

section
/-!
SUPPORT. The sign-magnitude adder as addition of integers (42_add_sub.md R82, R83): an integer is a sign and a
magnitude, and the two branches of the adder are the two ways such integers add.
-/

namespace Sys2Proof.Machine

/-! ### Integers as a sign and a magnitude -/

/-- The integer of sign `n` and magnitude `k`, of any size. -/
def signedInt (n : Bool) (k : Nat) : Int := if n then -(k : Int) else k

theorem Int256.toInt_eq_signedInt (x : Int256) : x.toInt = signedInt x.neg x.mag.toNat := rfl

theorem signedInt_natAbs (n : Bool) (k : Nat) : (signedInt n k).natAbs = k := by
  cases n with
  | false => exact Int.natAbs_natCast k
  | true => exact (Int.natAbs_neg _).trans (Int.natAbs_natCast k)

theorem neg_signedInt (n : Bool) (k : Nat) : -signedInt n k = signedInt (!n) k := by
  cases n with
  | false => rfl
  | true => exact neg_neg _

/-- Equal signs: the magnitudes add, the sign is the common one (R82). -/
theorem signedInt_add_same (n : Bool) (j k : Nat) : signedInt n j + signedInt n k = signedInt n (j + k) := by
  cases n with
  | false => exact (Int.natCast_add j k).symm
  | true =>
    simp only [signedInt, if_true]
    omega

/-- Differing signs: the magnitudes subtract, the sign is that of the greater (R82). -/
theorem signedInt_add_opposite (n : Bool) {j k : Nat} (h : k ≤ j) :
    signedInt n j + signedInt (!n) k = signedInt n (j - k) := by
  cases n with
  | false =>
    simp only [signedInt, Bool.not_false, if_true, Bool.false_eq_true, if_false]
    omega
  | true =>
    simp only [signedInt, Bool.not_true, if_true, Bool.false_eq_true, if_false]
    omega

/-- `ofInt` takes an integer's sign and the low 256 bits of its magnitude; at zero no sign is left. -/
theorem Int256.ofInt_signedInt (n : Bool) (k : Nat) :
    Int256.ofInt (signedInt n k) = canon n (BitVec.ofNat 256 k) := by
  rw [ofInt, signedInt_natAbs]
  obtain rfl | hk := Nat.eq_zero_or_pos k
  · rfl
  · congr 1
    cases n with
    | false => exact decide_eq_false (by simp [signedInt])
    | true => exact decide_eq_true (by simpa [signedInt] using hk)

/-! ### The adder -/

/-- What the adder computes of two integers: the low 256 bits of the sum with its sign, and OVERFLOW exactly when
it does not fit (R82). -/
def exactSum (u v : Int) : Int256 × Diag :=
  (Int256.ofInt (u + v), overflowIf (decide (2 ^ 256 ≤ (u + v).natAbs)))

theorem exactSum_comm (u v : Int) : exactSum u v = exactSum v u := by
  rw [exactSum, exactSum, add_comm]

theorem exactSum_same (n : Bool) (x y : Mag) :
    exactSum (signedInt n x.toNat) (signedInt n y.toNat) =
      (canon n (addmag x y).1, overflowIf (addmag x y).2) := by
  have low : BitVec.ofNat 256 (x.toNat + y.toNat) = (addmag x y).1 :=
    BitVec.eq_of_toNat_eq ((BitVec.toNat_ofNat _ _).trans (addmag_fst_toNat x y).symm)
  rw [exactSum, signedInt_add_same, Int256.ofInt_signedInt, low, signedInt_natAbs, addmag_snd]

/-- With differing signs the sum is no greater than either operand, so it fits. -/
theorem exactSum_opposite (n : Bool) {x y : Mag} (h : y.toNat ≤ x.toNat) :
    exactSum (signedInt n x.toNat) (signedInt (!n) y.toNat) = (canon n (submag x y), .none) := by
  have fits : ¬ 2 ^ 256 ≤ x.toNat - y.toNat := by have := x.isLt; omega
  rw [exactSum, signedInt_add_opposite n h, Int256.ofInt_signedInt, signedInt_natAbs, ← submag_toNat h,
    BitVec.ofNat_toNat, BitVec.setWidth_eq, submag_toNat h, decide_eq_false fits]
  rfl

/-- Sign by sign, and by the comparator where they differ, the adder adds integers (R82). -/
theorem addSigned_eq_exactSum (a b : Int256) : addSigned a b = exactSum a.toInt b.toInt := by
  obtain ⟨n, x⟩ := a
  obtain ⟨m, y⟩ := b
  rw [Int256.toInt_eq_signedInt, Int256.toInt_eq_signedInt]
  by_cases hs : n = m
  · subst hs
    rw [addSigned, if_pos rfl, exactSum_same]
  · obtain rfl : m = !n := Bool.eq_not_of_ne (Ne.symm hs)
    rw [addSigned, if_neg hs]
    obtain ⟨hc, hlt⟩ | ⟨hc, hlt⟩ | ⟨hc, heq⟩ := cmpmag_cases x y
    · rw [hc, exactSum_opposite n hlt.le]
    · have swapped := exactSum_opposite (!n) hlt.le
      rw [Bool.not_not] at swapped
      rw [hc, exactSum_comm, swapped]
    · have zero : submag x y = 0 :=
        BitVec.eq_of_toNat_eq ((submag_toNat heq.ge).trans (by simp [heq]))
      rw [hc, exactSum_opposite n heq.ge, zero]
      rfl

/-- The value NEG gives, and `negate` inside SUB, denotes the opposite integer (R61, R83). -/
theorem canon_not_toInt (x : Int256) : (canon (!x.neg) x.mag).toInt = -x.toInt :=
  (canon_toInt ⟨!x.neg, x.mag⟩).trans (neg_signedInt x.neg x.mag.toNat).symm

/-! ### ADD and SUB -/

/-- The response that carries a sum of integers (R82). -/
def sumResponse (u v : Int) : Response := .ofValue (exactSum u v).1 (exactSum u v).2

theorem sumResponse_comm (u v : Int) : sumResponse u v = sumResponse v u := by
  rw [sumResponse, exactSum_comm, sumResponse]

/-- Its fields, written out. -/
theorem sumResponse_eq (u v : Int) :
    sumResponse u v = { Response.zero with
      val := Int256.ofInt (u + v), diag := if (u + v).natAbs < 2 ^ 256 then 0b00 else 0b01 } := by
  by_cases fits : (u + v).natAbs < 2 ^ 256
  · rw [sumResponse, exactSum, if_pos fits, decide_eq_false fits.not_ge]; rfl
  · rw [sumResponse, exactSum, if_neg fits, decide_eq_true (not_lt.mp fits)]; rfl

/-- What ADD answers (R82). -/
theorem responseOf_exec_add (s : State) :
    responseOf (exec .add s) = sumResponse s.req.a.toInt s.req.b.toInt := by
  rw [sumResponse, ← s.opA_toInt, ← s.opB_toInt, ← addSigned_eq_exactSum]
  rfl

/-- What SUB answers: the sum with the opposite of the second operand (R83). -/
theorem responseOf_exec_sub (s : State) :
    responseOf (exec .sub s) = sumResponse s.req.a.toInt (-s.req.b.toInt) := by
  rw [sumResponse, ← s.opA_toInt, ← s.opB_toInt, ← canon_not_toInt, ← addSigned_eq_exactSum]
  rfl

theorem respond_add (a b : Int256) : respond ⟨encode .add, a, b⟩ = sumResponse a.toInt b.toInt :=
  (respond_encode rfl a b).trans (responseOf_exec_add _)

theorem respond_sub (a b : Int256) : respond ⟨encode .sub, a, b⟩ = sumResponse a.toInt (-b.toInt) :=
  (respond_encode rfl a b).trans (responseOf_exec_sub _)

/-- The value NEG answers (R61). -/
theorem respond_neg_val_toInt (a b : Int256) : (respond ⟨encode .neg, a, b⟩).val.toInt = -a.toInt := by
  rw [respond_encode rfl, responseOf_exec_neg]
  exact canon_not_toInt a

end Sys2Proof.Machine
end

section
/-!
SUPPORT. The multiplier does not look at the order of its operands (43_multiply.md R90 to R92): exchanging them
exchanges the indices of each pair of limbs, and the columns are sums over all pairs.
-/

namespace Sys2Proof.Machine

theorem mul64_comm (x y : Limb) : mul64 x y = mul64 y x := by
  simp only [mul64, Nat.mul_comm]

theorem pairWeight_comm (i j : Nat) : pairWeight i j = pairWeight j i := Nat.add_comm _ _

theorem columnPart_swap (x y : Mag) (k : Nat) (p : Nat × Nat) :
    columnPart x y k p.swap = columnPart y x k p := by
  simp only [columnPart, Prod.fst_swap, Prod.snd_swap, pairWeight_comm p.2, mul64_comm (limb x p.2)]

/-- The sixteen pairs are all pairs, so exchanging indices only reorders them. -/
theorem limbPairs_swap_perm : (limbPairs.map Prod.swap).Perm limbPairs := by decide

theorem column_comm (x y : Mag) (k : Nat) : column x y k = column y x k := by
  calc column x y k
    _ = ((limbPairs.map Prod.swap).map (columnPart x y k)).sum :=
      ((limbPairs_swap_perm.map _).sum_eq).symm
    _ = column y x k := by
      rw [List.map_map, column]
      exact congrArg List.sum (List.map_congr_left fun p _ => columnPart_swap x y k p)

theorem mulmag_comm (x y : Mag) : mulmag x y = mulmag y x := by
  rw [mulmag, mulmag, funext (column_comm x y)]

theorem mulSigned_comm (a b : Int256) : mulSigned a b = mulSigned b a := by
  rw [mulSigned, mulSigned, mulmag_comm, Bool.xor_comm]

/-- What the block answers to MUL (R92). -/
theorem respond_mul (a b : Int256) :
    respond ⟨encode .mul, a, b⟩ =
      .ofValue (mulSigned (canon a.neg a.mag) (canon b.neg b.mag)).1
        (mulSigned (canon a.neg a.mag) (canon b.neg b.mag)).2 :=
  respond_encode rfl a b

end Sys2Proof.Machine
end

section
/-! The statements of 42_add_sub.md, settled. -/

namespace Sys2Proof.Machine

/-- Settles O42: sum and carry out together are the sum. -/
theorem carryChainAdds : Obligations.CarryChainAdds := fun x y =>
  ⟨addmag_fst_toNat x y, addmag_snd_toNat x y⟩

/-- Settles O43: with `x ≥ y` no borrow leaves the chain. -/
theorem borrowChainSubtracts : Obligations.BorrowChainSubtracts := fun _ _ => submag_toNat

/-- Settles O32: the adder adds the integers its operands denote. -/
theorem addIsExactSumOrOverflow : Obligations.AddIsExactSumOrOverflow :=
  ⟨decode_encode (i := .add) (by decide), fun s =>
    exec_eq_next ((responseOf_exec_add s).trans (sumResponse_eq _ _))⟩

/-- Settles O33: SUB adds the opposite integer. -/
theorem subIsExactDifferenceOrOverflow : Obligations.SubIsExactDifferenceOrOverflow :=
  ⟨decode_encode (i := .sub) (by decide), fun s =>
    exec_eq_next ((responseOf_exec_sub s).trans (sumResponse_eq _ _))⟩

/-- Settles O50: the responses depend on the sum of the integers, and on the product buffer and the product of
the signs, none of which depends on the order. -/
theorem addMulCommuteAndSubNegates : Obligations.AddMulCommuteAndSubNegates := by
  intro a b
  refine ⟨?_, ?_, ?_⟩
  · rw [respond_add, respond_add, sumResponse_comm]
  · rw [respond_mul, respond_mul, mulSigned_comm]
  · rw [respond_sub, respond_add, respond_neg_val_toInt]

end Sys2Proof.Machine
end

section
/-!
SUPPORT. The product buffer is the exact product (43_multiply.md R90, R91): read by their weights, the columns
hold the sixteen products of limbs, whose sum is the product; and the ripple turns columns into limbs
without changing what they read as.
-/

namespace Sys2Proof.Machine

/-! ### The columns -/

theorem ofDigits_map_range (B : Nat) (f : Nat → Nat) (n : Nat) :
    Nat.ofDigits B ((List.range n).map f) = ∑ k ∈ Finset.range n, f k * B ^ k := by
  induction n with
  | zero => rfl
  | succ n ih =>
    rw [List.range_succ, List.map_append, Nat.ofDigits_append, ih, Finset.sum_range_succ, List.length_map,
      List.length_range, List.map_singleton, Nat.ofDigits_singleton, Nat.mul_comm]

/-- The product of the pair's limbs, at its weight (R90). -/
def pairProduct (x y : Mag) (p : Nat × Nat) : Nat :=
  (limb x p.1).toNat * (limb y p.2).toNat * (2 ^ 64) ^ pairWeight p.1 p.2

/-- What a pair puts into its two columns is the product of its limbs, provided both columns are there. -/
theorem sum_columnPart (x y : Mag) {p : Nat × Nat} {n : Nat} (hp : pairWeight p.1 p.2 + 1 < n) :
    ∑ k ∈ Finset.range n, columnPart x y k p * (2 ^ 64) ^ k = pairProduct x y p := by
  have low : pairWeight p.1 p.2 ∈ Finset.range n := Finset.mem_range.mpr (Nat.lt_of_succ_lt hp)
  have high : pairWeight p.1 p.2 + 1 ∈ Finset.range n := Finset.mem_range.mpr hp
  simp only [columnPart, add_mul, ite_mul, zero_mul, Finset.sum_add_distrib, Finset.sum_ite_eq, if_pos low,
    if_pos high]
  rw [pairProduct, ← mul64_spec]
  ring

/-- Pair by pair, the columns of the products of any pairs hold the sum of these products. -/
theorem sum_columnParts (x y : Mag) (n : Nat) {ps : List (Nat × Nat)}
    (hps : ∀ p ∈ ps, pairWeight p.1 p.2 + 1 < n) :
    ∑ k ∈ Finset.range n, (ps.map (columnPart x y k)).sum * (2 ^ 64) ^ k =
      (ps.map (pairProduct x y)).sum := by
  induction ps with
  | nil => simp
  | cons p ps ih =>
    obtain ⟨hp, hps⟩ := List.forall_mem_cons.mp hps
    simp only [List.map_cons, List.sum_cons, add_mul, Finset.sum_add_distrib, sum_columnPart x y hp, ih hps]

/-- Schoolbook multiplication in any base (R90): the products of all pairs of digits, each at its weight, add up
to the product of the numbers. -/
theorem sum_limbPairs (B : Nat) (a b : Nat → Nat) :
    (limbPairs.map fun p => a p.1 * b p.2 * B ^ pairWeight p.1 p.2).sum =
      (((a 0 * B + a 1) * B + a 2) * B + a 3) * (((b 0 * B + b 1) * B + b 2) * B + b 3) := by
  simp only [limbPairs, pairWeight, List.map_cons, List.map_nil, List.sum_cons, List.sum_nil]
  ring

theorem sum_pairProducts (x y : Mag) : (limbPairs.map (pairProduct x y)).sum = x.toNat * y.toNat := by
  rw [toNat_limbs x, toNat_limbs y]
  exact sum_limbPairs (2 ^ 64) (fun i => (limb x i).toNat) fun j => (limb y j).toNat

/-- The column accumulators, by their weights, hold the exact product (R91). -/
theorem ofDigits_columns (x y : Mag) :
    Nat.ofDigits (2 ^ 64) ((List.range Config.prodLimbs).map (column x y)) = x.toNat * y.toNat := by
  have inside : ∀ p ∈ limbPairs, pairWeight p.1 p.2 + 1 < Config.prodLimbs := by decide
  calc Nat.ofDigits (2 ^ 64) ((List.range Config.prodLimbs).map (column x y))
    _ = ∑ k ∈ Finset.range Config.prodLimbs, column x y k * (2 ^ 64) ^ k := ofDigits_map_range _ _ _
    _ = (limbPairs.map (pairProduct x y)).sum := sum_columnParts x y _ inside
    _ = x.toNat * y.toNat := sum_pairProducts x y

/-! ### The ripple -/

@[simp] theorem ripple_length (cols : List Nat) (c : Nat) : (ripple cols c).length = cols.length := by
  induction cols generalizing c with
  | nil => rfl
  | cons col cols ih => rw [ripple, List.length_cons, List.length_cons, ih]

/-- The limbs read as the columns do, with the carry that enters, less what leaves the last limb (R91). -/
theorem ofDigits_ripple (cols : List Nat) (c : Nat) :
    Nat.ofDigits (2 ^ 64) ((ripple cols c).map BitVec.toNat) =
      (Nat.ofDigits (2 ^ 64) cols + c) % (2 ^ 64) ^ cols.length := by
  induction cols generalizing c with
  | nil => rw [List.length_nil, pow_zero, Nat.mod_one]; rfl
  | cons col cols ih =>
    have regroup : Nat.ofDigits (2 ^ 64) (col :: cols) + c = (col + c) + 2 ^ 64 * Nat.ofDigits (2 ^ 64) cols := by
      rw [Nat.ofDigits_cons, Nat.add_right_comm]
    rw [ripple, List.map_cons, Nat.ofDigits_cons, ih, BitVec.toNat_ofNat, List.length_cons,
      pow_succ' (2 ^ 64) cols.length, Nat.mod_mul, regroup, Nat.add_mul_mod_self_left,
      Nat.add_mul_div_left _ _ (Nat.two_pow_pos 64), Nat.add_comm (Nat.ofDigits _ cols)]

/-! ### The buffer -/

/-- The number a buffer of limbs holds, its first limb most significant (R91). -/
def bufferValue (p : List Limb) : Nat := p.foldl (fun n l => n * 2 ^ 64 + l.toNat) 0

theorem bufferValue_reverse (ls : List Limb) :
    bufferValue ls.reverse = Nat.ofDigits (2 ^ 64) (ls.map BitVec.toNat) := by
  calc bufferValue ls.reverse
    _ = (ls.reverse.map BitVec.toNat).foldl (fun n c => n * 2 ^ 64 + c) 0 := List.foldl_map.symm
    _ = Nat.ofDigits (2 ^ 64) (ls.map BitVec.toNat) := by
      rw [foldl_eq_ofDigits_reverse, ← List.map_reverse, List.reverse_reverse]

theorem mulmag_length (x y : Mag) : (mulmag x y).length = 8 := by
  rw [mulmag, List.length_reverse, ripple_length, List.length_map, List.length_range]
  rfl

/-- The eight limbs hold every product of two magnitudes, so nothing leaves the ripple (R91). -/
theorem bufferValue_mulmag (x y : Mag) : bufferValue (mulmag x y) = x.toNat * y.toNat := by
  have fits : x.toNat * y.toNat < (2 ^ 64) ^ Config.prodLimbs :=
    (Nat.mul_lt_mul'' x.isLt y.isLt).trans_eq (by decide)
  rw [mulmag, bufferValue_reverse, ofDigits_ripple, ofDigits_columns, List.length_map, List.length_range,
    Nat.add_zero, Nat.mod_eq_of_lt fits]

end Sys2Proof.Machine
end

section
/-!
SUPPORT. MUL as multiplication of integers (43_multiply.md R92): the value is read from the low half of the
buffer, OVERFLOW from the high half, and the sign is that of the product.
-/

namespace Sys2Proof.Machine

/-! ### The halves of the buffer -/

/-- The high four limbs of the buffer, as a magnitude (R92). -/
def prodHigh (p : List Limb) : Mag := ofLimbs (prodLimb p 0) (prodLimb p 1) (prodLimb p 2) (prodLimb p 3)

theorem ofLimbs_toNat_pos_iff (a b c d : Limb) :
    0 < (ofLimbs a b c d).toNat ↔ a ≠ 0 ∨ b ≠ 0 ∨ c ≠ 0 ∨ d ≠ 0 := by
  simp only [ofLimbs_toNat, ne_eq, ← BitVec.toNat_inj, BitVec.ofNat_eq_ofNat, BitVec.toNat_ofNat]
  omega

theorem prodHighNonzero_eq (p : List Limb) : prodHighNonzero p = decide (0 < (prodHigh p).toNat) := by
  rw [Bool.eq_iff_iff, decide_eq_true_iff, prodHigh, ofLimbs_toNat_pos_iff]
  simp only [prodHighNonzero, Bool.or_eq_true, bne_iff_ne, or_assoc]

theorem bufferValue_eq_halves {p : List Limb} (hp : p.length = 8) :
    bufferValue p = (prodHigh p).toNat * 2 ^ 256 + (prodLow p).toNat := by
  match p, hp with
  | [_, _, _, _, _, _, _, _], _ =>
    simp only [bufferValue, List.foldl_cons, List.foldl_nil, prodHigh, prodLow, prodLimb, ofLimbs_toNat,
      List.getD_cons_zero, List.getD_cons_succ]
    ring

theorem mulmag_halves (x y : Mag) :
    (prodHigh (mulmag x y)).toNat * 2 ^ 256 + (prodLow (mulmag x y)).toNat = x.toNat * y.toNat :=
  (bufferValue_eq_halves (mulmag_length x y)).symm.trans (bufferValue_mulmag x y)

/-- The low half keeps the low 256 bits of the product (R92). -/
theorem prodLow_mulmag (x y : Mag) : prodLow (mulmag x y) = BitVec.ofNat 256 (x.toNat * y.toNat) := by
  apply BitVec.eq_of_toNat_eq
  rw [BitVec.toNat_ofNat, ← mulmag_halves, Nat.mul_add_mod_self_right, Nat.mod_eq_of_lt (BitVec.isLt _)]

/-- The high half holds something exactly when the product does not fit (R92). -/
theorem prodHighNonzero_mulmag (x y : Mag) :
    prodHighNonzero (mulmag x y) = decide (2 ^ 256 ≤ x.toNat * y.toNat) := by
  have halves := mulmag_halves x y
  have low := (prodLow (mulmag x y)).isLt
  rw [prodHighNonzero_eq]
  exact decide_eq_decide.mpr (by omega)

/-! ### Signed multiplication -/

/-- The magnitudes multiply, and the product is negative where the signs differ (R92). -/
theorem signedInt_mul (n m : Bool) (j k : Nat) :
    signedInt n j * signedInt m k = signedInt (n ^^ m) (j * k) := by
  have scale : (j : Int) * signedInt m k = signedInt m (j * k) := by
    cases m with
    | false => exact (Int.natCast_mul j k).symm
    | true =>
      simp only [signedInt, if_true, Int.natCast_mul]
      exact mul_neg _ _
  cases n with
  | false =>
    rw [Bool.false_xor]
    exact scale
  | true =>
    rw [Bool.true_xor, ← neg_signedInt, ← scale]
    exact neg_mul _ _

theorem Int256.toInt_mul (a b : Int256) :
    a.toInt * b.toInt = signedInt (a.neg ^^ b.neg) (a.mag.toNat * b.mag.toNat) :=
  signedInt_mul _ _ _ _

/-- The multiplier multiplies integers: the product's sign and low 256 bits, and OVERFLOW exactly when it does
not fit (R92). -/
theorem mulSigned_eq (a b : Int256) :
    mulSigned a b =
      (Int256.ofInt (a.toInt * b.toInt), overflowIf (decide (2 ^ 256 ≤ a.mag.toNat * b.mag.toNat))) := by
  rw [mulSigned, prodLow_mulmag, prodHighNonzero_mulmag, Int256.toInt_mul, Int256.ofInt_signedInt]

theorem overflowIf_code (c : Bool) : (overflowIf c).code = if c then 0b01 else 0b00 := by
  cases c <;> rfl

/-- What MUL answers, in terms of the operands as the host offered them (R92). -/
theorem responseOf_exec_mul (s : State) :
    responseOf (exec .mul s) = { Response.zero with
      val := Int256.ofInt (s.req.a.toInt * s.req.b.toInt)
      diag := if s.req.a.mag.toNat * s.req.b.mag.toNat < 2 ^ 256 then 0b00 else 0b01 } := by
  have answer : responseOf (exec .mul s) = .ofValue (mulSigned s.opA s.opB).1 (mulSigned s.opA s.opB).2 := rfl
  rw [answer, mulSigned_eq, Response.ofValue, overflowIf_code, s.opA_toInt, s.opB_toInt, s.opA_mag, s.opB_mag]
  simp only [decide_eq_true_eq, ← not_lt, ite_not]

end Sys2Proof.Machine
end

section
/-! The statements of 43_multiply.md, settled. -/

namespace Sys2Proof.Machine

/-- Settles O44: the ripple keeps what the columns hold, which is the product. -/
theorem productBufferIsExact : Obligations.ProductBufferIsExact := fun x y =>
  ⟨mulmag_length x y, bufferValue_mulmag x y⟩

/-- Settles O34: the multiplier multiplies the integers its operands denote. -/
theorem mulIsExactProductOrOverflow : Obligations.MulIsExactProductOrOverflow :=
  ⟨decode_encode (i := .mul) (by decide), fun s => exec_eq_next (responseOf_exec_mul s)⟩

end Sys2Proof.Machine
end

section
/-!
SUPPORT. The restoring long division divides (44_divide.md R100, R104): before each iteration, quotient and
remainder are those of the dividend's bits brought down so far, and each iteration brings down one more.
-/

namespace Sys2Proof.Machine

/-! ### Bringing down a bit -/

/-- The bits of `x` from bit `k` on are those above bit `k` with bit `k` brought down. -/
theorem div_two_pow_eq_add_bit (x k : Nat) : x / 2 ^ k = 2 * (x / 2 ^ (k + 1)) + x / 2 ^ k % 2 := by
  rw [Nat.pow_succ, ← Nat.div_div_eq_div_mul]
  omega

/-- What is no greater than the bits of `x` above bit `k` stays within `x` when bit `k` is brought down, however large
the divisor is (R104). -/
theorem shiftIn_toNat {x r : Mag} {k : Nat} (h : r.toNat ≤ x.toNat / 2 ^ (k + 1)) :
    (shiftIn x k r).toNat = r.toNat * 2 + x.toNat / 2 ^ k % 2 := by
  have bit : (x.getLsbD k).toNat = x.toNat / 2 ^ k % 2 := by
    rw [← BitVec.testBit_toNat, Nat.toNat_testBit]
  have within : x.toNat / 2 ^ k < 2 ^ 256 := (Nat.div_le_self _ _).trans_lt x.isLt
  rw [div_two_pow_eq_add_bit] at within
  rw [shiftIn, bit, BitVec.toNat_ofNat, Nat.mod_eq_of_lt (by omega)]

theorem shiftQuot_toNat {q : Mag} (h : q.toNat * 2 < 2 ^ 256) : (shiftQuot q).toNat = q.toNat * 2 := by
  rw [shiftQuot, BitVec.toNat_ofNat, Nat.mod_eq_of_lt h]

/-! ### Compare and conditionally subtract -/

theorem restore_of_lt {y r : Mag} (q : Mag) (h : r.toNat < y.toNat) : restore y q r = (q, r) := by
  rw [restore, cmpmag_eq_compare, compare_lt_iff_lt.mpr h]

theorem restore_of_le {y r : Mag} (q : Mag) (h : y.toNat ≤ r.toNat) :
    restore y q r = (q + 1, submag r y) := by
  obtain ⟨hc, _⟩ | ⟨_, hlt⟩ | ⟨hc, _⟩ := cmpmag_cases r y
  · rw [restore, hc]
  · exact absurd hlt h.not_gt
  · rw [restore, hc]

/-! ### The invariant -/

/-- Quotient and remainder of `n` by `y`. -/
def DividesInto (y : Mag) (n : Nat) (qr : Mag × Mag) : Prop :=
  qr.2.toNat + y.toNat * qr.1.toNat = n ∧ qr.2.toNat < y.toNat

theorem dividesInto_iff {y : Mag} (hy : y ≠ 0) (n : Nat) (qr : Mag × Mag) :
    DividesInto y n qr ↔ qr.1.toNat = n / y.toNat ∧ qr.2.toNat = n % y.toNat :=
  (Nat.div_mod_unique (Nat.pos_of_ne_zero (toNat_ne_zero hy))).symm.trans (and_congr eq_comm eq_comm)

/-- One conditional subtraction makes a remainder below `2 * y` one below `y` (R100). -/
theorem restore_dividesInto {y q r : Mag} (hn : r.toNat + y.toNat * q.toNat < 2 ^ 256)
    (hr : r.toNat < 2 * y.toNat) :
    DividesInto y (r.toNat + y.toNat * q.toNat) (restore y q r) := by
  obtain h | h := Nat.lt_or_ge r.toNat y.toNat
  · rw [restore_of_lt q h]
    exact ⟨rfl, h⟩
  · have value : r.toNat + y.toNat * q.toNat = (r.toNat - y.toNat) + y.toNat * (q.toNat + 1) := by
      rw [Nat.mul_succ]
      omega
    have quotient_le : q.toNat + 1 ≤ y.toNat * (q.toNat + 1) := Nat.le_mul_of_pos_left _ (by omega)
    have quotient : (q + 1).toNat = q.toNat + 1 :=
      BitVec.toNat_add_of_lt (show q.toNat + 1 < 2 ^ 256 by omega)
    rw [restore_of_le q h, DividesInto, submag_toNat h, quotient]
    exact ⟨value.symm, by omega⟩

/-- An iteration takes the division of the bits above bit `k` to that of the bits from bit `k` on (R100). -/
theorem divStep_dividesInto {x y : Mag} {k : Nat} {qr : Mag × Mag}
    (h : DividesInto y (x.toNat / 2 ^ (k + 1)) qr) :
    DividesInto y (x.toNat / 2 ^ k) (divStep x y k qr) := by
  obtain ⟨value, small⟩ := h
  have bits := div_two_pow_eq_add_bit x.toNat k
  have within : x.toNat / 2 ^ k < 2 ^ 256 := (Nat.div_le_self _ _).trans_lt x.isLt
  have quotient_le : qr.1.toNat ≤ y.toNat * qr.1.toNat := Nat.le_mul_of_pos_left _ (by omega)
  have remainder : (shiftIn x k qr.2).toNat = qr.2.toNat * 2 + x.toNat / 2 ^ k % 2 := shiftIn_toNat (by omega)
  have quotient : (shiftQuot qr.1).toNat = qr.1.toNat * 2 := shiftQuot_toNat (by omega)
  have shifted : (shiftIn x k qr.2).toNat + y.toNat * (shiftQuot qr.1).toNat = x.toNat / 2 ^ k := by
    rw [bits, ← value, remainder, quotient]
    ring
  rw [← shifted] at within ⊢
  exact restore_dividesInto within (by omega)

theorem divLoop_dividesInto {x y : Mag} (k : Nat) {qr : Mag × Mag}
    (h : DividesInto y (x.toNat / 2 ^ k) qr) : DividesInto y x.toNat (divLoop x y k qr) := by
  induction k generalizing qr with
  | zero => rwa [pow_zero, Nat.div_one] at h
  | succ k ih => exact ih (divStep_dividesInto h)

/-- All bits brought down, the loop has divided `x` (R100). -/
theorem udivrem_dividesInto (x : Mag) {y : Mag} (hy : y ≠ 0) : DividesInto y x.toNat (udivrem x y) := by
  refine divLoop_dividesInto _ ⟨?_, Nat.pos_of_ne_zero (toNat_ne_zero hy)⟩
  exact (Nat.div_eq_of_lt x.isLt).symm

theorem udivrem_eq (x : Mag) {y : Mag} (hy : y ≠ 0) : udivrem x y = (x / y, x % y) := by
  obtain ⟨quotient, remainder⟩ := (dividesInto_iff hy _ _).mp (udivrem_dividesInto x hy)
  exact Prod.ext (BitVec.eq_of_toNat_eq quotient) (BitVec.eq_of_toNat_eq remainder)

end Sys2Proof.Machine
end

section
/-!
SUPPORT. DIV and MOD as truncating division of integers (44_divide.md R101 to R103), and what ADD and MUL answer
where nothing overflows, for the division identity.
-/

namespace Sys2Proof.Machine

/-! ### The divider's two results -/

theorem divSigned_of_zero {a b : Int256} (hb : b.mag = 0) : divSigned a b = (Int256.zero, .divZero) := if_pos hb

theorem modSigned_of_zero {a b : Int256} (hb : b.mag = 0) : modSigned a b = (Int256.zero, .divZero) := if_pos hb

theorem lt_of_cmpmag_eq_lt {x y : Mag} (h : cmpmag x y = .lt) : x < y := by
  rwa [cmpmag_eq_compare, compare_lt_iff_lt] at h

/-- The short cut for a dividend below the divisor gives what the loop would: a zero quotient (R101). -/
theorem divSigned_of_ne_zero {a b : Int256} (hb : b.mag ≠ 0) :
    divSigned a b = (canon (a.neg ^^ b.neg) (a.mag / b.mag), .none) := by
  rw [divSigned, if_neg hb, udivrem_eq _ hb]
  split
  · next h =>
    have quotient : a.mag / b.mag = 0 :=
      BitVec.udiv_eq_zero_iff_eq_zero_or_lt.mpr (.inr (lt_of_cmpmag_eq_lt h))
    rw [quotient, canon_zero]
    rfl
  · rfl

/-- Likewise for the remainder, which is then the dividend (R101). -/
theorem modSigned_of_ne_zero {a b : Int256} (ha : a.canonical) (hb : b.mag ≠ 0) :
    modSigned a b = (canon a.neg (a.mag % b.mag), .none) := by
  rw [modSigned, if_neg hb, udivrem_eq _ hb]
  split
  · next h => rw [BitVec.umod_eq_of_lt (lt_of_cmpmag_eq_lt h), ha.canon_self]
  · rfl

/-! ### Truncating division of integers -/

/-- The magnitudes divide, and the quotient is negative where the signs differ (R102). -/
theorem signedInt_tdiv (n m : Bool) (j k : Nat) :
    (signedInt n j).tdiv (signedInt m k) = signedInt (n ^^ m) (j / k) := by
  have scale : (j : Int).tdiv (signedInt m k) = signedInt m (j / k) := by
    cases m with
    | false => exact (Int.ofNat_tdiv j k).symm
    | true => exact (Int.tdiv_neg _ _).trans (congrArg Neg.neg (Int.ofNat_tdiv j k).symm)
  cases n with
  | false =>
    rw [Bool.false_xor]
    exact scale
  | true =>
    rw [Bool.true_xor, ← neg_signedInt, ← scale]
    exact Int.neg_tdiv _ _

/-- The remainder has the dividend's sign, whatever the divisor's (R103). -/
theorem signedInt_tmod (n m : Bool) (j k : Nat) :
    (signedInt n j).tmod (signedInt m k) = signedInt n (j % k) := by
  have divisor : (j : Int).tmod (signedInt m k) = (j % k : Nat) := by
    cases m with
    | false => exact (Int.ofNat_tmod j k).symm
    | true => exact (Int.tmod_neg _ _).trans (Int.ofNat_tmod j k).symm
  cases n with
  | false => exact divisor
  | true => exact (Int.neg_tmod _ _).trans (congrArg Neg.neg divisor)

theorem Int256.ofInt_tdiv (a b : Int256) :
    Int256.ofInt (a.toInt.tdiv b.toInt) = canon (a.neg ^^ b.neg) (a.mag / b.mag) := by
  rw [toInt_eq_signedInt, toInt_eq_signedInt, signedInt_tdiv, ofInt_signedInt, BitVec.udiv_def]

theorem Int256.ofInt_tmod (a b : Int256) :
    Int256.ofInt (a.toInt.tmod b.toInt) = canon a.neg (a.mag % b.mag) := by
  rw [toInt_eq_signedInt, toInt_eq_signedInt, signedInt_tmod, ofInt_signedInt, BitVec.umod_def]

/-! ### DIV and MOD -/

/-- What DIV answers, in terms of the operands as the host offered them (R102). -/
theorem responseOf_exec_div (s : State) :
    responseOf (exec .div s) = if s.req.b.mag = 0 then .ofValue Int256.zero .divZero
      else .ofValue (Int256.ofInt (s.req.a.toInt.tdiv s.req.b.toInt)) .none := by
  have answer : responseOf (exec .div s) = .ofValue (divSigned s.opA s.opB).1 (divSigned s.opA s.opB).2 := rfl
  rw [answer]
  split
  · next hb => rw [divSigned_of_zero (s.opB_mag.trans hb)]
  · next hb =>
    rw [divSigned_of_ne_zero (s.opB_mag.trans_ne hb), ← Int256.ofInt_tdiv, s.opA_toInt, s.opB_toInt]

/-- What MOD answers, in terms of the operands as the host offered them (R103). -/
theorem responseOf_exec_mod (s : State) :
    responseOf (exec .mod s) = if s.req.b.mag = 0 then .ofValue Int256.zero .divZero
      else .ofValue (Int256.ofInt (s.req.a.toInt.tmod s.req.b.toInt)) .none := by
  have answer : responseOf (exec .mod s) = .ofValue (modSigned s.opA s.opB).1 (modSigned s.opA s.opB).2 := rfl
  rw [answer]
  split
  · next hb => rw [modSigned_of_zero (s.opB_mag.trans hb)]
  · next hb =>
    rw [modSigned_of_ne_zero s.opA_canonical (s.opB_mag.trans_ne hb), ← Int256.ofInt_tmod _ s.opB,
      s.opA_toInt, s.opB_toInt]

/-! ### Transactions that report nothing -/

theorem Int256.toInt_natAbs (x : Int256) : x.toInt.natAbs = x.mag.toNat := signedInt_natAbs _ _

/-- The value that stands for an integer that fits denotes it (R11). -/
theorem Int256.toInt_ofInt {v : Int} (h : v.natAbs < 2 ^ 256) : (Int256.ofInt v).toInt = v := by
  have magnitude : (BitVec.ofNat 256 v.natAbs).toNat = v.natAbs :=
    (BitVec.toNat_ofNat _ _).trans (Nat.mod_eq_of_lt h)
  have value := canon_toInt ⟨decide (v < 0), BitVec.ofNat 256 v.natAbs⟩
  rw [ofInt, value, toInt, magnitude]
  by_cases hv : v < 0
  · simp only [hv, decide_true, if_true]
    omega
  · simp only [hv, decide_false, Bool.false_eq_true, if_false]
    omega

theorem Int256.ofInt_toInt (x : Int256) : Int256.ofInt x.toInt = canon x.neg x.mag := by
  rw [toInt_eq_signedInt, ofInt_signedInt, BitVec.ofNat_toNat, BitVec.setWidth_eq]

/-- The operands are below 2²⁵⁶ in magnitude, so whatever is no greater than one of them fits (R11). -/
theorem Int256.natAbs_lt_of_le (x : Int256) {v : Int} (h : v.natAbs ≤ x.toInt.natAbs) : v.natAbs < 2 ^ 256 :=
  h.trans_lt (x.toInt_natAbs.trans_lt x.mag.isLt)

theorem natAbs_tmod_le (u v : Int) : (u.tmod v).natAbs ≤ u.natAbs :=
  (Int.natAbs_tmod u v).trans_le (Nat.mod_le _ _)

/-- The product of quotient and divisor is no greater than the dividend. -/
theorem natAbs_tdiv_mul_le (u v : Int) : (u.tdiv v * v).natAbs ≤ u.natAbs := by
  rw [Int.natAbs_mul, Int.natAbs_tdiv]
  exact Nat.div_mul_le_self _ _

/-- The value DIV answers denotes the exact quotient (R102). -/
theorem respond_div_val_toInt (a : Int256) {b : Int256} (hb : b.mag ≠ 0) :
    (respond ⟨encode .div, a, b⟩).val.toInt = a.toInt.tdiv b.toInt := by
  rw [respond_encode rfl, responseOf_exec_div, if_neg]
  · exact Int256.toInt_ofInt (a.natAbs_lt_of_le (Int.natAbs_tdiv_le_natAbs _ _))
  · exact hb

/-- The value MOD answers denotes the exact remainder (R103). -/
theorem respond_mod_val_toInt (a : Int256) {b : Int256} (hb : b.mag ≠ 0) :
    (respond ⟨encode .mod, a, b⟩).val.toInt = a.toInt.tmod b.toInt := by
  rw [respond_encode rfl, responseOf_exec_mod, if_neg]
  · exact Int256.toInt_ofInt (a.natAbs_lt_of_le (natAbs_tmod_le _ _))
  · exact hb

/-- A product that fits is answered exactly (R92). -/
theorem respond_mul_of_fits {a b : Int256} (h : (a.toInt * b.toInt).natAbs < 2 ^ 256) :
    respond ⟨encode .mul, a, b⟩ = .ofValue (Int256.ofInt (a.toInt * b.toInt)) .none := by
  have fits : a.mag.toNat * b.mag.toNat < 2 ^ 256 := by
    rwa [Int.natAbs_mul, a.toInt_natAbs, b.toInt_natAbs] at h
  rw [respond_encode rfl, responseOf_exec_mul, if_pos]
  · rfl
  · exact fits

/-- A sum that fits is answered exactly (R82). -/
theorem respond_add_of_fits {a b : Int256} (h : (a.toInt + b.toInt).natAbs < 2 ^ 256) :
    respond ⟨encode .add, a, b⟩ = .ofValue (Int256.ofInt (a.toInt + b.toInt)) .none := by
  rw [respond_add, sumResponse_eq, if_pos h]
  rfl

end Sys2Proof.Machine
end

section
/-! The statements of 44_divide.md, settled. -/

namespace Sys2Proof.Machine

/-- Settles O45: the loop keeps the division of the bits brought down so far. -/
theorem longDivisionDivides : Obligations.LongDivisionDivides := fun x _ hy =>
  (dividesInto_iff hy _ _).mp (udivrem_dividesInto x hy)

/-- Settles O46: the remainder is no greater than the bits of `x` above bit `k`. -/
theorem runningRemainderFits : Obligations.RunningRemainderFits := by
  intro x y r k _ _ hr
  exact shiftIn_toNat (hr.trans_le (Nat.mod_le _ _))

/-- Settles O35: the magnitudes divide and the signs combine as truncating division of integers does. -/
theorem divTruncatesTowardZero : Obligations.DivTruncatesTowardZero :=
  ⟨decode_encode (i := .div) (by decide), fun s => exec_eq_next (responseOf_exec_div s)⟩

/-- Settles O36: the magnitude's remainder with the dividend's sign is the remainder of truncating division. -/
theorem modTakesDividendSign : Obligations.ModTakesDividendSign :=
  ⟨decode_encode (i := .mod) (by decide), fun s => exec_eq_next (responseOf_exec_mod s)⟩

/-- Settles O49: quotient, product and remainder are no greater than the dividend, so each transaction answers the
exact integer, and the integers satisfy the identity. -/
theorem divisionIdentity : Obligations.DivisionIdentity := by
  intro a b hb q m p r
  have quotient : q.val.toInt = a.toInt.tdiv b.toInt := respond_div_val_toInt a hb
  have remainder : m.val.toInt = a.toInt.tmod b.toInt := respond_mod_val_toInt a hb
  have product_fits : (q.val.toInt * b.toInt).natAbs < 2 ^ 256 :=
    quotient ▸ a.natAbs_lt_of_le (natAbs_tdiv_mul_le _ _)
  have product : p = .ofValue (Int256.ofInt (q.val.toInt * b.toInt)) .none := respond_mul_of_fits product_fits
  have identity : p.val.toInt + m.val.toInt = a.toInt := by
    rw [product, Response.ofValue_val, Int256.toInt_ofInt product_fits, quotient, remainder,
      Int.tdiv_mul_add_tmod]
  have sum : r = .ofValue (Int256.ofInt (p.val.toInt + m.val.toInt)) .none :=
    respond_add_of_fits (identity ▸ a.natAbs_lt_of_le le_rfl)
  refine ⟨?_, ?_, ?_⟩
  · rw [sum, Response.ofValue_val, identity, Int256.ofInt_toInt]
  · rw [product]; rfl
  · rw [sum]; rfl

end Sys2Proof.Machine
end

section
/-!
SUPPORT. The bitwise unit combines magnitudes bit by bit (45_bitwise.md R110): a bitwise operator commutes with
taking a limb, and a magnitude is its limbs.
-/

namespace Sys2Proof.Machine

/-- A magnitude whose limbs are the combined limbs is the combination. -/
theorem limbwise_eq {op : Limb → Limb → Limb} {x y z : Mag}
    (h : ∀ i, limb z i = op (limb x i) (limb y i)) : limbwise op x y = z := by
  rw [limbwise, ← h, ← h, ← h, ← h, ofLimbs_limb]

theorem limbwise_and (x y : Mag) : limbwise (· &&& ·) x y = x &&& y :=
  limbwise_eq fun _ => BitVec.extractLsb'_and

theorem limbwise_or (x y : Mag) : limbwise (· ||| ·) x y = x ||| y :=
  limbwise_eq fun _ => BitVec.extractLsb'_or

theorem limbwise_xor (x y : Mag) : limbwise (· ^^^ ·) x y = x ^^^ y :=
  limbwise_eq fun _ => BitVec.extractLsb'_xor

/-- What AND answers (R112). -/
theorem responseOf_exec_and (s : State) :
    responseOf (exec .and s) =
      .ofValue (canon (s.opA.neg && s.opB.neg) (s.req.a.mag &&& s.req.b.mag)) .none := by
  rw [← s.opA_mag, ← s.opB_mag, ← limbwise_and]
  rfl

/-- What OR answers (R113). -/
theorem responseOf_exec_or (s : State) :
    responseOf (exec .or s) =
      .ofValue (canon (s.opA.neg || s.opB.neg) (s.req.a.mag ||| s.req.b.mag)) .none := by
  rw [← s.opA_mag, ← s.opB_mag, ← limbwise_or]
  rfl

/-- What XOR answers (R114). -/
theorem responseOf_exec_xor (s : State) :
    responseOf (exec .xor s) =
      .ofValue (canon (s.opA.neg ^^ s.opB.neg) (s.req.a.mag ^^^ s.req.b.mag)) .none := by
  rw [← s.opA_mag, ← s.opB_mag, ← limbwise_xor]
  rfl

end Sys2Proof.Machine
end

section
/-! The statements of 45_bitwise.md, settled. -/

namespace Sys2Proof.Machine

/-- Settles O37: the limbs combine as the magnitudes do, and the signs are those of the operands as the unit
reads them. -/
theorem andCombinesMagnitudesAndSigns : Obligations.AndCombinesMagnitudesAndSigns :=
  ⟨decode_encode (i := .and) (by decide), fun s => exec_eq_next (responseOf_exec_and s)⟩

/-- Settles O38: likewise for OR. -/
theorem orCombinesMagnitudesAndSigns : Obligations.OrCombinesMagnitudesAndSigns :=
  ⟨decode_encode (i := .or) (by decide), fun s => exec_eq_next (responseOf_exec_or s)⟩

/-- Settles O39: likewise for XOR. -/
theorem xorCombinesMagnitudesAndSigns : Obligations.XorCombinesMagnitudesAndSigns :=
  ⟨decode_encode (i := .xor) (by decide), fun s => exec_eq_next (responseOf_exec_xor s)⟩

end Sys2Proof.Machine
end

section
/-!
SUPPORT. The limb decomposition of the shifters (46_shift.md R121), bit by bit: each limb of the result holds the bits
of the magnitude `n` places away, so the whole limbs are moved and joined as a shift by `n`.
-/

namespace Sys2Proof.Machine

/-! ### Bits of a magnitude by position -/

/-- Bit `p` of a magnitude; the positions below bit 0 and above bit 255 hold zeros (R120). -/
def magBit (m : Mag) (p : Int) : Bool := decide (0 ≤ p) && m.getLsbD p.toNat

theorem magBit_natCast (m : Mag) (p : Nat) : magBit m p = m.getLsbD p := by
  simp [magBit]

theorem magBit_of_neg (m : Mag) {p : Int} (h : p < 0) : magBit m p = false := by
  simp [magBit, h]

theorem magBit_of_ge (m : Mag) {p : Int} (h : 256 ≤ p) : magBit m p = false := by
  rw [magBit, BitVec.getLsbD_of_ge _ _ (by omega), Bool.and_false]

theorem getLsbD_shl (m : Mag) (n : Nat) {p : Nat} (hp : p < 256) :
    (m <<< n).getLsbD p = magBit m ((p : Int) - n) := by
  rw [BitVec.getLsbD_shiftLeft, decide_eq_true hp, Bool.true_and]
  obtain h | h := Nat.lt_or_ge p n
  · rw [magBit_of_neg m (by omega), decide_eq_true h, Bool.not_true, Bool.false_and]
  · rw [← Nat.cast_sub h, magBit_natCast, decide_eq_false h.not_gt, Bool.not_false, Bool.true_and]

theorem getLsbD_shr (m : Mag) (n p : Nat) : (m >>> n).getLsbD p = magBit m ((p : Int) + n) := by
  rw [BitVec.getLsbD_ushiftRight, ← Nat.cast_add, magBit_natCast, Nat.add_comm]

/-! ### Bits of the limbs -/

/-- Limb `i` holds the 64 bits from position `192 - 64 * i` up, also where the index names no limb (R121). -/
theorem testBit_limbOrZero (m : Mag) (i : Int) (k : Nat) :
    (limbOrZero m i).testBit k = (decide (k < 64) && magBit m (192 - 64 * i + k)) := by
  by_cases hi : 0 ≤ i ∧ i ≤ 3
  · obtain ⟨j, rfl⟩ := Int.eq_ofNat_of_zero_le hi.1
    have position : (192 - 64 * (j : Int) + k) = ((192 - 64 * j + k : Nat) : Int) := by omega
    rw [limbOrZero, if_pos hi, BitVec.testBit_toNat, limb, BitVec.getLsbD_extractLsb', position, magBit_natCast]
    rfl
  · rw [limbOrZero, if_neg hi, Nat.zero_testBit]
    by_cases hk : k < 64
    · obtain above | below : 256 ≤ 192 - 64 * i + k ∨ 192 - 64 * i + k < 0 := by omega
      · rw [magBit_of_ge m above, Bool.and_false]
      · rw [magBit_of_neg m below, Bool.and_false]
    · rw [decide_eq_false hk, Bool.false_and]

theorem getLsbD_ofNat_limbOrZero (m : Mag) (i : Int) {k : Nat} (hk : k < 64) :
    (BitVec.ofNat 64 (limbOrZero m i)).getLsbD k = magBit m (192 - 64 * i + k) := by
  rw [BitVec.getLsbD_ofNat, testBit_limbOrZero, decide_eq_true hk, Bool.true_and, Bool.true_and]

/-- The sub-limb shift: a limb moved up by `r`, with the high bits of the next limb below it, holds the bits `r` places
below its own (R121). -/
theorem getLsbD_subLimbShift (m : Mag) (i : Int) {r k : Nat} (hr : r ≤ 64) (hk : k < 64) :
    (BitVec.ofNat 64 (limbOrZero m i * 2 ^ r % 2 ^ 64) |||
      BitVec.ofNat 64 (limbOrZero m (i + 1) / 2 ^ (64 - r))).getLsbD k = magBit m (192 - 64 * i + k - r) := by
  rw [BitVec.getLsbD_or, BitVec.getLsbD_ofNat, BitVec.getLsbD_ofNat, Nat.testBit_mod_two_pow,
    Nat.testBit_mul_two_pow, Nat.testBit_div_two_pow, testBit_limbOrZero, testBit_limbOrZero, decide_eq_true hk]
  simp only [Bool.true_and]
  obtain own | below := le_or_gt r k
  · have position : 192 - 64 * i + ((k - r : Nat) : Int) = 192 - 64 * i + k - r := by omega
    have upper : ¬ k + (64 - r) < 64 := by omega
    have lower : k - r < 64 := by omega
    rw [position, decide_eq_true own, decide_eq_true lower, decide_eq_false upper, Bool.true_and, Bool.true_and,
      Bool.false_and, Bool.or_false]
  · have position : 192 - 64 * (i + 1) + ((k + (64 - r) : Nat) : Int) = 192 - 64 * i + k - r := by omega
    have upper : k + (64 - r) < 64 := by omega
    rw [position, decide_eq_false below.not_ge, decide_eq_true upper, Bool.false_and, Bool.false_or, Bool.true_and]

/-- Bit `k` of limb `i` of the left shift is the bit `64 * q + r` places below. -/
theorem getLsbD_shlLimb (m : Mag) (q : Nat) (i : Int) {r k : Nat} (hr : r < 64) (hk : k < 64) :
    (shlLimb m q r i).getLsbD k = magBit m (192 - 64 * i + k - (64 * q + r)) := by
  rw [shlLimb]
  split
  · next h =>
    rw [getLsbD_ofNat_limbOrZero m _ hk]
    congr 1; omega
  · rw [getLsbD_subLimbShift m _ hr.le hk]
    congr 1; omega

/-- Bit `k` of limb `i` of the right shift is the bit `64 * q + r` places above: the limb above moves up by `64 - r`. -/
theorem getLsbD_shrLimb (m : Mag) (q : Nat) (i : Int) {r k : Nat} (hr : r < 64) (hk : k < 64) :
    (shrLimb m q r i).getLsbD k = magBit m (192 - 64 * i + k + (64 * q + r)) := by
  rw [shrLimb]
  split
  · next h =>
    rw [getLsbD_ofNat_limbOrZero m _ hk]
    congr 1; omega
  · have joined := getLsbD_subLimbShift m (i - q - 1) (Nat.sub_le 64 r) hk
    rw [Int.sub_add_cancel, Nat.sub_sub_self hr.le] at joined
    rw [BitVec.or_comm, joined]
    congr 1; omega

/-! ### The limbs joined -/

/-- Four limbs that hold a magnitude's bits, each from its position up, make up the magnitude (R8, R11). -/
theorem ofLimbs_eq_of_bits {l : Int → Limb} {z : Mag}
    (h : ∀ i k : Nat, i ≤ 3 → k < 64 → (l i).getLsbD k = z.getLsbD (192 - 64 * i + k)) :
    ofLimbs (l 0) (l 1) (l 2) (l 3) = z := by
  have limbs (i : Nat) (hi : i ≤ 3) : l i = limb z i :=
    BitVec.eq_of_getLsbD_eq fun k hk => by
      rw [h i k hi hk, limb, BitVec.getLsbD_extractLsb', decide_eq_true hk, Bool.true_and]
  calc ofLimbs (l 0) (l 1) (l 2) (l 3)
    _ = ofLimbs (limb z 0) (limb z 1) (limb z 2) (limb z 3) := by
      rw [← limbs 0 (by decide), ← limbs 1 (by decide), ← limbs 2 (by decide), ← limbs 3 (by decide)]
      rfl
    _ = z := ofLimbs_limb z

/-- The left decomposition is the shift of the whole magnitude (R121). -/
theorem shlmag_eq (m : Mag) (n : Nat) : shlmag m n = m <<< n := by
  refine ofLimbs_eq_of_bits (l := shlLimb m (n / 64) (n % 64)) fun i k hi hk => ?_
  rw [getLsbD_shlLimb m _ _ (Nat.mod_lt _ (by decide)) hk, getLsbD_shl m n (by omega)]
  congr 1; omega

/-- Likewise to the right (R121). -/
theorem shrmag_eq (m : Mag) (n : Nat) : shrmag m n = m >>> n := by
  refine ofLimbs_eq_of_bits (l := shrLimb m (n / 64) (n % 64)) fun i k hi hk => ?_
  rw [getLsbD_shrLimb m _ _ (Nat.mod_lt _ (by decide)) hk, getLsbD_shr m n]
  congr 1; omega

end Sys2Proof.Machine
end

section
/-!
SUPPORT. What SHL and SHR answer (46_shift.md R122, R123), in terms of the operand as the host offered it, and the
shifts of a magnitude as arithmetic.
-/

namespace Sys2Proof.Machine

/-! ### Shifts as arithmetic -/

theorem toNat_shl (m : Mag) (n : Nat) : (m <<< n).toNat = m.toNat * 2 ^ n % 2 ^ 256 := by
  rw [BitVec.toNat_shiftLeft, Nat.shiftLeft_eq]

theorem toNat_shr (m : Mag) (n : Nat) : (m >>> n).toNat = m.toNat / 2 ^ n := by
  rw [BitVec.toNat_ushiftRight, Nat.shiftRight_eq_div_pow]

/-- No bit stays within the 256 from an amount of 256 on (R122). -/
theorem shl_eq_ite (m : Mag) (n : Nat) :
    m <<< n = if n ≥ 256 then 0 else BitVec.ofNat 256 (m.toNat * 2 ^ n) := by
  split
  · next h => exact BitVec.shiftLeft_eq_zero h
  · exact BitVec.eq_of_toNat_eq ((toNat_shl m n).trans (BitVec.toNat_ofNat _ _).symm)

/-- Likewise to the right (R123). -/
theorem shr_eq_ite (m : Mag) (n : Nat) :
    m >>> n = if n ≥ 256 then 0 else BitVec.ofNat 256 (m.toNat / 2 ^ n) := by
  split
  · next h => exact BitVec.ushiftRight_eq_zero h
  · rw [← toNat_shr, BitVec.ofNat_toNat, BitVec.setWidth_eq]

theorem shl_of_eq_zero {m : Mag} (n : Nat) (h : m = 0) : m <<< n = 0 := by
  rw [h]
  exact BitVec.zero_shiftLeft n

theorem shr_of_eq_zero {m : Mag} (n : Nat) (h : m = 0) : m >>> n = 0 := by
  rw [h]
  exact BitVec.zero_ushiftRight

/-- Shifted right and back, the low `n` bits are lost (R124). -/
theorem shl_shr (m : Mag) (n : Nat) :
    (m >>> n) <<< n = BitVec.ofNat 256 (m.toNat - m.toNat % 2 ^ n) := by
  apply BitVec.eq_of_toNat_eq
  rw [toNat_shl, toNat_shr, Nat.div_mul_self_eq_mod_sub_self, BitVec.toNat_ofNat]

/-- Shifted left and back, the high `n` bits are lost (R124). -/
theorem shr_shl (m : Mag) {n : Nat} (hn : n ≤ 256) :
    (m <<< n) >>> n = BitVec.ofNat 256 (m.toNat % 2 ^ (256 - n)) := by
  have split_pow : 2 ^ 256 = 2 ^ (256 - n) * 2 ^ n := by rw [← pow_add, Nat.sub_add_cancel hn]
  have value : ((m <<< n) >>> n).toNat = m.toNat % 2 ^ (256 - n) := by
    rw [toNat_shr, toNat_shl, split_pow, Nat.mul_mod_mul_right, Nat.mul_div_cancel _ (Nat.two_pow_pos n)]
  rw [← value, BitVec.ofNat_toNat, BitVec.setWidth_eq]

/-! ### SHL and SHR -/

/-- A sign read through `canon` serves as well as the sign offered, where zero leads to zero. -/
theorem canon_canon_neg (s : Bool) {m m' : Mag} (h : m = 0 → m' = 0) :
    canon (canon s m).neg m' = canon s m' := by
  by_cases hm : m = 0
  · rw [h hm, canon_zero, canon_zero]
  · rw [canon_neg, decide_eq_true hm, Bool.and_true]

/-- What SHL answers, for every amount: the sign offered, and a shift that is zero from 256 on (R122). -/
theorem responseOf_exec_shl (n : Nat) (s : State) :
    responseOf (exec (.shl n) s) = .ofValue (canon s.req.a.neg (s.req.a.mag <<< n)) .none := by
  have answer : responseOf (exec (.shl n) s) =
      .ofValue (canon s.opA.neg (if n ≥ 256 then 0 else shlmag s.opA.mag n)) .none := rfl
  have amount : (if n ≥ 256 then 0 else s.req.a.mag <<< n) = s.req.a.mag <<< n :=
    ite_eq_right_iff.mpr fun h => (BitVec.shiftLeft_eq_zero h).symm
  rw [answer, shlmag_eq, s.opA_mag, amount, State.opA, canon_canon_neg _ (shl_of_eq_zero n)]

/-- What SHR answers, likewise (R123). -/
theorem responseOf_exec_shr (n : Nat) (s : State) :
    responseOf (exec (.shr n) s) = .ofValue (canon s.req.a.neg (s.req.a.mag >>> n)) .none := by
  have answer : responseOf (exec (.shr n) s) =
      .ofValue (canon s.opA.neg (if n ≥ 256 then 0 else shrmag s.opA.mag n)) .none := rfl
  have amount : (if n ≥ 256 then 0 else s.req.a.mag >>> n) = s.req.a.mag >>> n :=
    ite_eq_right_iff.mpr fun h => (BitVec.ushiftRight_eq_zero h).symm
  rw [answer, shrmag_eq, s.opA_mag, amount, State.opA, canon_canon_neg _ (shr_of_eq_zero n)]

/-- The value the block answers to the word of SHL (R122). -/
theorem respond_shl_val {n : Nat} (h : n < 2 ^ 16) (a b : Int256) :
    (respond ⟨encode (.shl n), a, b⟩).val = canon a.neg (a.mag <<< n) := by
  rw [respond_encode ((Instr.wellFormed_iff (.shl n)).mpr h), responseOf_exec_shl, Response.ofValue_val]
  rfl

/-- The value the block answers to the word of SHR (R123). -/
theorem respond_shr_val {n : Nat} (h : n < 2 ^ 16) (a b : Int256) :
    (respond ⟨encode (.shr n), a, b⟩).val = canon a.neg (a.mag >>> n) := by
  rw [respond_encode ((Instr.wellFormed_iff (.shr n)).mpr h), responseOf_exec_shr, Response.ofValue_val]
  rfl

/-! ### The command word -/

/-- The word of an operation as a number: the count above bit 16 and the opcode below bit 8 (R40, R45). -/
theorem decode_ofNat {i : Instr} (h : i.count < 2 ^ 16) :
    decode (BitVec.ofNat 32 (i.count * 2 ^ 16 + i.opcode.toNat)) = .ok i := by
  have opcode := i.opcode.isLt
  have word : (BitVec.ofNat 32 (i.count * 2 ^ 16 + i.opcode.toNat)).toNat = i.count * 2 ^ 16 + i.opcode.toNat :=
    (BitVec.toNat_ofNat _ _).trans (Nat.mod_eq_of_lt (by omega))
  refine decode_eq_ok_iff.mpr ⟨BitVec.eq_of_toNat_eq ?_, BitVec.eq_of_toNat_eq ?_, ?_⟩
  · rw [opcField_toNat, word]; omega
  · rw [rsvField_toNat, word, show (0 : BitVec 8).toNat = 0 from rfl]; omega
  · rw [cntField_toNat, word]; omega

end Sys2Proof.Machine
end

section
/-! The statements of 46_shift.md, settled. -/

namespace Sys2Proof.Machine

/-- Settles O47: the limbs, moved and joined, hold the bits of the magnitude `n` places away. -/
theorem limbShiftsShift : Obligations.LimbShiftsShift := fun m n _ =>
  ⟨(congrArg _ (shlmag_eq m n)).trans (toNat_shl m n), (congrArg _ (shrmag_eq m n)).trans (toNat_shr m n)⟩

/-- Settles O40: the decomposition shifts the magnitude, of which nothing is left from an amount of 256 on. -/
theorem shlMultipliesMagnitude : Obligations.ShlMultipliesMagnitude := by
  refine ⟨fun n hn => decode_ofNat (i := .shl n) hn, fun n s => exec_eq_next ?_⟩
  rw [responseOf_exec_shl, shl_eq_ite]
  rfl

/-- Settles O41: likewise to the right. -/
theorem shrDividesMagnitude : Obligations.ShrDividesMagnitude := by
  refine ⟨fun n hn => decode_ofNat (i := .shr n) hn, fun n s => exec_eq_next ?_⟩
  rw [responseOf_exec_shr, shr_eq_ite]
  rfl

/-- Settles O51: the second shift reads a sign that is lost only with the magnitude, and the magnitude shifted there and
back lacks the bits the first shift lost. -/
theorem shiftsBackAndForthMask : Obligations.ShiftsBackAndForthMask := by
  intro a b n hn
  have fits : n < 2 ^ 16 := by omega
  constructor
  · rw [respond_shl_val fits, respond_shr_val fits, canon_mag, canon_canon_neg _ (shl_of_eq_zero n), shl_shr]
  · rw [respond_shr_val fits, respond_shl_val fits, canon_mag, canon_canon_neg _ (shr_of_eq_zero n),
      shr_shl _ (by omega)]

end Sys2Proof.Machine
end

section
/-!
SUPPORT. A MUL transaction as a step of a longer product (47_host_procedures.md R130; 43_multiply.md R92):
truncating to 256 bits commutes with multiplication, so a sequence of MULs ends with the truncated product.
-/

namespace Sys2Proof.Machine

theorem canon_false (m : Mag) : canon false m = ⟨false, m⟩ :=
  Int256.canonical.canon_self (x := ⟨false, m⟩) fun _ => rfl

/-! ### Truncation to 256 bits and products -/

theorem exists_signedInt (v : Int) : ∃ n k, v = signedInt n k := by
  obtain h | h := Int.natAbs_eq v
  · exact ⟨false, v.natAbs, h⟩
  · exact ⟨true, v.natAbs, h⟩

/-- The truncated product depends on the truncated factors alone: a sign that a factor loses with its magnitude,
the product loses too. -/
theorem Int256.ofInt_mul (u v : Int) :
    Int256.ofInt (u * v) =
      canon ((Int256.ofInt u).neg ^^ (Int256.ofInt v).neg) ((Int256.ofInt u).mag * (Int256.ofInt v).mag) := by
  obtain ⟨n, j, rfl⟩ := exists_signedInt u
  obtain ⟨m, k, rfl⟩ := exists_signedInt v
  simp only [signedInt_mul, ofInt_signedInt, canon_mag, canon_neg, BitVec.ofNat_mul]
  by_cases hj : BitVec.ofNat 256 j = 0
  · rw [hj, zero_mul, canon_zero, canon_zero]
  by_cases hk : BitVec.ofNat 256 k = 0
  · rw [hk, mul_zero, canon_zero, canon_zero]
  rw [decide_eq_true hj, decide_eq_true hk, Bool.and_true, Bool.and_true]

theorem Int256.ofInt_mul_congr {u u' v v' : Int} (hu : Int256.ofInt u = Int256.ofInt u')
    (hv : Int256.ofInt v = Int256.ofInt v') : Int256.ofInt (u * v) = Int256.ofInt (u' * v') := by
  rw [ofInt_mul, ofInt_mul, hu, hv]

theorem Int256.ofInt_toInt_ofInt (v : Int) : Int256.ofInt (Int256.ofInt v).toInt = Int256.ofInt v := by
  rw [ofInt_toInt, Int256.ofInt, canon_canon]

theorem Int256.ofInt_natCast (k : Nat) : Int256.ofInt k = ⟨false, BitVec.ofNat 256 k⟩ :=
  (ofInt_signedInt false k).trans (canon_false _)

/-! ### The transaction -/

/-- What a MUL transaction answers (R92). -/
theorem mulTransaction_eq (x y : Int256) :
    mulTransaction x y = .ofValue (Int256.ofInt (x.toInt * y.toInt))
      (overflowIf (decide (2 ^ 256 ≤ x.mag.toNat * y.mag.toNat))) := by
  rw [mulTransaction, respond_mul, mulSigned_eq, canon_toInt, canon_toInt, canon_mag, canon_mag]

theorem mulTransaction_val (x y : Int256) :
    (mulTransaction x y).val = Int256.ofInt (x.toInt * y.toInt) := by
  rw [mulTransaction_eq, Response.ofValue_val]

/-- The OVERFLOW code is no other diagnostic's (R151). -/
theorem ofValue_overflowIf_reportsOverflow (v : Int256) (c : Bool) :
    (Response.ofValue v (overflowIf c)).reportsOverflow = c := by
  cases c <;> rfl

theorem mulTransaction_reportsOverflow (x y : Int256) :
    (mulTransaction x y).reportsOverflow = decide (2 ^ 256 ≤ x.mag.toNat * y.mag.toNat) := by
  rw [mulTransaction_eq, ofValue_overflowIf_reportsOverflow]

end Sys2Proof.Machine
end

section
/-!
SUPPORT. POW (47_host_procedures.md R135, R136): each turn of the binary method keeps the truncation of
`res * base ^ exponent`, the power still to come.
-/

namespace Sys2Proof.Machine

/-! ### One turn of the loop -/

@[simp] theorem PowState.multiply_base (p : PowState) : p.multiply.base = p.base := rfl

theorem PowState.multiply_res (p : PowState) :
    p.multiply.res = Int256.ofInt (p.res.toInt * p.base.toInt) := mulTransaction_val _ _

@[simp] theorem PowState.square_res (p : PowState) : p.square.res = p.res := rfl

theorem PowState.square_base (p : PowState) :
    p.square.base = Int256.ofInt (p.base.toInt * p.base.toInt) := mulTransaction_val _ _

/-- The result is the truncation of `v`, and the running square that of `b`; the square may also be an operand as
the host offered it, which need not be canonical. -/
def PowState.Truncates (p : PowState) (v b : Int) : Prop :=
  p.res = Int256.ofInt v ∧ Int256.ofInt p.base.toInt = Int256.ofInt b

variable {p : PowState} {v b : Int}

theorem PowState.Truncates.multiply (h : p.Truncates v b) : p.multiply.Truncates (v * b) b := by
  obtain ⟨hres, hbase⟩ := h
  refine ⟨?_, hbase⟩
  rw [multiply_res, hres]
  exact Int256.ofInt_mul_congr (Int256.ofInt_toInt_ofInt v) hbase

theorem PowState.Truncates.square (h : p.Truncates v b) : p.square.Truncates v (b * b) := by
  obtain ⟨hres, hbase⟩ := h
  refine ⟨hres, ?_⟩
  rw [square_base, Int256.ofInt_toInt_ofInt]
  exact Int256.ofInt_mul_congr hbase hbase

/-- The conditional multiplication takes the exponent's lowest bit. -/
theorem PowState.Truncates.multiply_if (h : p.Truncates v b) (e : Nat) :
    (if e % 2 = 1 then p.multiply else p).Truncates (v * b ^ (e % 2)) b := by
  obtain even | odd := Nat.mod_two_eq_zero_or_one e
  · simpa [even] using h
  · simpa [odd] using h.multiply

/-! ### The loop -/

/-- Two bits of the exponent: its last one, and the rest over the square. -/
theorem pow_eq_bit_mul_square_pow (b : Int) (e : Nat) : b ^ e = b ^ (e % 2) * (b * b) ^ (e / 2) := by
  rw [← pow_two, ← pow_mul, ← pow_add, Nat.mod_add_div]

/-- The binary method over enough bits multiplies the result by the power (R135, R136). -/
theorem powLoop_res {bits e : Nat} (he : e < 2 ^ bits) (h : p.Truncates v b) :
    (powLoop bits e p).res = Int256.ofInt (v * b ^ e) := by
  induction bits generalizing e p v b with
  | zero =>
    obtain rfl : e = 0 := Nat.lt_one_iff.mp he
    rw [pow_zero, mul_one]
    exact h.1
  | succ bits ih =>
    have multiplied := h.multiply_if e
    rw [powLoop, PowState.turn, pow_eq_bit_mul_square_pow, ← mul_assoc]
    split
    · next hzero =>
      subst hzero
      simpa using h.1
    · next hne =>
      split
      · exact ih (by omega) multiplied.square
      · next hlast =>
        have rest : e / 2 = 0 := by omega
        rw [rest, ih (Nat.two_pow_pos bits) multiplied, pow_zero, pow_zero]

/-- POW ends with the truncated power (R135). -/
theorem pow_res (w : Nat) (a : Int256) (e : BitVec w) :
    (pow w a e).res = Int256.ofInt (a.toInt ^ e.toNat) := by
  rw [← one_mul (a.toInt ^ e.toNat)]
  exact powLoop_res e.isLt ⟨rfl, rfl⟩

/-! ### Sign and magnitude of a power -/

/-- The magnitude is the power of the magnitude; the sign survives in odd powers (R135). -/
theorem signedInt_pow (n : Bool) (k e : Nat) :
    signedInt n k ^ e = signedInt (n && decide (e % 2 = 1)) (k ^ e) := by
  cases n with
  | false => exact (Int.natCast_pow k e).symm
  | true =>
    rw [Bool.true_and]
    obtain even | odd := Nat.even_or_odd e
    · rw [decide_eq_false (by rw [Nat.even_iff.mp even]; decide)]
      exact (even.neg_pow _).trans (Int.natCast_pow k e).symm
    · rw [decide_eq_true (Nat.odd_iff.mp odd)]
      exact (odd.neg_pow _).trans (congrArg Neg.neg (Int.natCast_pow k e).symm)

theorem pow_res_eq_canon (w : Nat) (a : Int256) (e : BitVec w) :
    (pow w a e).res =
      canon (a.neg && decide (e.toNat % 2 = 1)) (BitVec.ofNat 256 (a.mag.toNat ^ e.toNat)) := by
  rw [pow_res, Int256.toInt_eq_signedInt, signedInt_pow, Int256.ofInt_signedInt]

end Sys2Proof.Machine
end

section
/-!
SUPPORT. FACT (47_host_procedures.md R137, R138): by Legendre's formula a factorial is zero modulo 2²⁵⁶ exactly
from 258 on, where the zero test ends the loop; until then the accumulator is the truncated factorial.
-/

namespace Sys2Proof.Machine

/-! ### Factorials modulo 2²⁵⁶ -/

/-- Legendre's formula at 2: `n!` has `n` factors of two, less one for each bit set in `n`. -/
theorem two_pow_dvd_factorial_iff (e n : Nat) : 2 ^ e ∣ n.factorial ↔ e ≤ n - (Nat.digits 2 n).sum := by
  rw [padicValNat_dvd_iff_le n.factorial_ne_zero, ← sub_one_mul_padicValNat_factorial, Nat.add_one_sub_one, one_mul]

/-- `257!` has the factor 2 only 255 times, `258!` has it 256 times. -/
theorem factorial_mod_eq_zero_iff (n : Nat) : n.factorial % 2 ^ 256 = 0 ↔ 258 ≤ n := by
  have at257 : ¬ 2 ^ 256 ∣ (257).factorial := by
    rw [two_pow_dvd_factorial_iff]
    norm_num
  have at258 : 2 ^ 256 ∣ (258).factorial := by
    rw [two_pow_dvd_factorial_iff]
    norm_num
  rw [← Nat.dvd_iff_mod_eq_zero]
  constructor
  · intro h
    by_contra hn
    exact at257 (h.trans (Nat.factorial_dvd_factorial (by omega)))
  · exact fun h => at258.trans (Nat.factorial_dvd_factorial h)

theorem factorial_lt_of_le {n : Nat} (h : n ≤ 57) : n.factorial < 2 ^ 256 :=
  (Nat.factorial_le h).trans_lt (by norm_num [Nat.factorial])

theorem pred_factorial_mul {i : Nat} (h : 1 ≤ i) : (i - 1).factorial * i = i.factorial := by
  rw [Nat.mul_comm, Nat.mul_factorial_pred (by omega)]

/-! ### One MUL step -/

/-- `k!` as the accumulator holds it. -/
def factValue (k : Nat) : Int256 := ⟨false, BitVec.ofNat 256 k.factorial⟩

theorem factValue_eq_ofInt (k : Nat) : factValue k = Int256.ofInt k.factorial := (Int256.ofInt_natCast _).symm

theorem factValue_mag_eq_zero_iff (k : Nat) : (factValue k).mag = 0 ↔ 258 ≤ k := by
  rw [← factorial_mod_eq_zero_iff, ← BitVec.toNat_inj]
  exact Iff.rfl

/-- Multiplying by the next factor gives the next truncated factorial. -/
theorem mulTransaction_factValue_val (k : Nat) :
    (mulTransaction (factValue k) ⟨false, BitVec.ofNat 256 (k + 1)⟩).val = factValue (k + 1) := by
  have next : ((k + 1).factorial : Int) = k.factorial * ((k + 1 : Nat) : Int) := by
    rw [Nat.factorial_succ, Nat.mul_comm, Int.natCast_mul]
  rw [mulTransaction_val, factValue_eq_ofInt, factValue_eq_ofInt, ← Int256.ofInt_natCast, next]
  exact Int256.ofInt_mul_congr (Int256.ofInt_toInt_ofInt _) (Int256.ofInt_toInt_ofInt _)

/-- The factors, of those given, whose MUL step the host forwards a report of: the product of the truncated
accumulator and the factor does not fit (R92, D30, log entry 13). -/
def forwardedFactors (fwd : Bool) (is : List Nat) : List Nat :=
  if fwd then is.filter fun i => 2 ^ 256 ≤ (i - 1).factorial % 2 ^ 256 * i else []

@[simp] theorem forwardedFactors_nil (fwd : Bool) : forwardedFactors fwd [] = [] := by
  cases fwd <;> rfl

theorem forwardedFactors_append (fwd : Bool) (is js : List Nat) :
    forwardedFactors fwd (is ++ js) = forwardedFactors fwd is ++ forwardedFactors fwd js := by
  cases fwd with
  | false => rfl
  | true => exact List.filter_append ..

theorem forwardedFactors_cons (fwd : Bool) (i : Nat) (is : List Nat) :
    forwardedFactors fwd (i :: is) = forwardedFactors fwd [i] ++ forwardedFactors fwd is :=
  forwardedFactors_append fwd [i] is

theorem forwarded_factValue (fwd : Bool) {k : Nat} (hk : k + 1 < 2 ^ 256) :
    forwarded fwd (k + 1) (mulTransaction (factValue k) ⟨false, BitVec.ofNat 256 (k + 1)⟩) =
      forwardedFactors fwd [k + 1] := by
  rw [forwarded, mulTransaction_reportsOverflow, factValue, BitVec.toNat_ofNat, BitVec.toNat_ofNat,
    Nat.mod_eq_of_lt hk]
  cases fwd with
  | false => rfl
  | true => simp [forwardedFactors, List.filter_singleton]

/-! ### The loop -/

/-- From `k!` on, the loop takes its `n` factors, but none after 258, where the accumulator becomes zero. -/
theorem factLoop_factValue (fwd : Bool) (n : Nat) {k : Nat} (hk : k ≤ 257) (reports : List Nat) :
    factLoop fwd n (k + 1) (factValue k) reports =
      ⟨factValue (min (k + n) 258), decide (258 ≤ k + n),
        reports ++ forwardedFactors fwd (List.range' (k + 1) (min n (258 - k)))⟩ := by
  induction n generalizing k reports with
  | zero =>
    have within : ¬ 258 ≤ k + 0 := by omega
    rw [factLoop, decide_eq_false within, min_eq_left (by omega), Nat.zero_min, List.range'_zero,
      forwardedFactors_nil, List.append_nil, Nat.add_zero]
  | succ n ih =>
    obtain ⟨m, hm⟩ : ∃ m, min (n + 1) (258 - k) = m + 1 := ⟨min n (257 - k), by omega⟩
    rw [factLoop, mulTransaction_factValue_val, forwarded_factValue fwd (by omega), hm, List.range'_succ,
      forwardedFactors_cons _ _ (List.range' _ _), ← List.append_assoc]
    simp only [factValue_mag_eq_zero_iff]
    split
    · next hend =>
      obtain rfl : k = 257 := by omega
      obtain rfl : m = 0 := by omega
      rw [min_eq_right (by omega), decide_eq_true (by omega), List.range'_zero,
        forwardedFactors_nil, List.append_nil]
    · next hgo =>
      obtain rfl : m = min n (258 - (k + 1)) := by omega
      rw [ih (by omega), Nat.add_right_comm k 1 n, Nat.add_assoc k n 1]

/-- FACT of any argument: the truncated factorial up to 258, which is zero there, and the forwarded reports. -/
theorem factorial_eq (w : Nat) (fwd : Bool) (n : BitVec w) :
    factorial w fwd n =
      ⟨factValue (min n.toNat 258), decide (258 ≤ n.toNat),
        forwardedFactors fwd (List.range' 2 (min (n.toNat - 1) 257))⟩ := by
  have loop := factLoop_factValue fwd (n.toNat - 1) (k := 1) (by decide) []
  obtain hn | hn := Nat.eq_zero_or_pos n.toNat
  · rw [factorial, hn]
    exact congrArg (FactResult.mk _ _) (forwardedFactors_nil fwd).symm
  · rw [Nat.add_sub_cancel' hn] at loop
    exact loop

/-! ### The reports -/

/-- Up to 57 no product overflows. -/
theorem forwardedFactors_of_le (fwd : Bool) {is : List Nat} (h : ∀ i ∈ is, 1 ≤ i ∧ i ≤ 57) :
    forwardedFactors fwd is = [] := by
  cases fwd with
  | false => rfl
  | true =>
    refine List.filter_eq_nil_iff.mpr fun i hi overflow => ?_
    obtain ⟨hpos, hle⟩ := h i hi
    have bound : (i - 1).factorial % 2 ^ 256 * i ≤ i.factorial :=
      (Nat.mul_le_mul_right i (Nat.mod_le _ _)).trans_eq (pred_factorial_mul hpos)
    exact absurd (of_decide_eq_true overflow) (bound.trans_lt (factorial_lt_of_le hle)).not_ge

/-- The factors from 2 to 57 report nothing, so the reports are those of the factors from 58 on. -/
theorem forwardedFactors_range' (fwd : Bool) {n : Nat} (h : 56 ≤ n) :
    forwardedFactors fwd (List.range' 2 n) = forwardedFactors fwd (List.range' 58 (n - 56)) := by
  have quiet : forwardedFactors fwd (List.range' 2 56) = [] :=
    forwardedFactors_of_le fwd fun i hi => by
      rw [List.mem_range'_1] at hi
      omega
  obtain ⟨m, rfl⟩ := Nat.exists_eq_add_of_le h
  rw [← List.range'_append_1, forwardedFactors_append, quiet, List.nil_append, Nat.add_sub_cancel_left]

/-- The first product that overflows is that of the factor 58. -/
theorem forwardedFactors_head? {n : Nat} (h : 0 < n) :
    (forwardedFactors true (List.range' 58 n)).head? = some 58 := by
  have overflow : 2 ^ 256 ≤ (58 - 1).factorial % 2 ^ 256 * 58 := by
    norm_num [Nat.factorial]
  obtain ⟨m, rfl⟩ := Nat.exists_eq_succ_of_ne_zero h.ne'
  rw [List.range'_succ, forwardedFactors, if_pos rfl, List.filter_cons_of_pos, List.head?_cons]
  exact decide_eq_true overflow

/-! ### The ranges of R138 -/

variable {w : Nat} {n : BitVec w}

theorem factorial_of_le_57 (fwd : Bool) (h : n.toNat ≤ 57) :
    factorial w fwd n = ⟨factValue n.toNat, false, []⟩ := by
  have quiet : forwardedFactors fwd (List.range' 2 (min (n.toNat - 1) 257)) = [] :=
    forwardedFactors_of_le fwd fun i hi => by
      rw [List.mem_range'_1] at hi
      omega
  rw [factorial_eq, quiet, min_eq_left (by omega), decide_eq_false (by omega)]

theorem factorial_of_le_257 (fwd : Bool) (h58 : 58 ≤ n.toNat) (h257 : n.toNat ≤ 257) :
    factorial w fwd n =
      ⟨factValue n.toNat, false, forwardedFactors fwd (List.range' 58 (n.toNat - 57))⟩ := by
  have count : n.toNat - 1 - 56 = n.toNat - 57 := by omega
  rw [factorial_eq, min_eq_left (by omega), min_eq_left (by omega), decide_eq_false (by omega),
    forwardedFactors_range' fwd (by omega), count]

theorem factorial_of_ge_258 (fwd : Bool) (h : 258 ≤ n.toNat) :
    factorial w fwd n = ⟨⟨false, 0⟩, true, forwardedFactors fwd (List.range' 58 201)⟩ := by
  have zero : (factValue 258).mag = 0 := (factValue_mag_eq_zero_iff 258).mpr le_rfl
  have value : factValue 258 = ⟨false, 0⟩ := congrArg (Int256.mk false) zero
  rw [factorial_eq, min_eq_right h, min_eq_right (by omega), decide_eq_true h, value,
    forwardedFactors_range' fwd (by decide)]

theorem factorial_mulOverflows_head? (h : 58 ≤ n.toNat) :
    (factorial w true n).mulOverflows.head? = some 58 := by
  rw [factorial_eq, forwardedFactors_range' true (by omega)]
  exact forwardedFactors_head? (by omega)

end Sys2Proof.Machine
end

section
/-! The statements of 47_host_procedures.md, settled. -/

namespace Sys2Proof.Machine

/-- Settles O59: the two ranges are the branches of the clamp. -/
theorem clampShiftRange : Obligations.ClampShiftRange := fun _ =>
  ⟨fun hlo hhi => if_neg (not_or.mpr ⟨hlo.not_gt, hhi.not_gt⟩), fun h => if_pos h⟩

/-- Settles O55: limb by limb, magnitude and carry together are the product with the digit added. -/
theorem accumulateMultipliesAndAdds : Obligations.AccumulateMultipliesAndAdds := by
  intro m base d _ _
  have exact_step := accumulate_spec m base d
  have low := (accumulate m base d).1.isLt
  omega

/-- Settles O56: no character of the text is whitespace, a sign or the name of a base, so the digit loop reads all
of it. -/
theorem parseTruncatesDecimalInput : Obligations.ParseTruncatesDecimalInput := by
  intro p ds hds hp
  have digit (d : Nat) (hd : d < 10) : p.isSpace (decDigit d) = false := by
    refine ParseParams.isSpace_eq_false (decDigit_ne hd (by decide)) fun h => hp _ h ?_
    rw [decDigit_toNat hd]
    omega
  rw [← canon_false]
  exact parse_decimal false hds nofun digit

/-- Settles O57: the binary method's result is the truncated power, with the sign of the power unless truncation
leaves zero. -/
theorem powIsPowerModulo : Obligations.PowIsPowerModulo := by
  intro w a e
  have nonzero : BitVec.ofNat 256 (a.mag.toNat ^ e.toNat) ≠ 0 ↔ a.mag.toNat ^ e.toNat % 2 ^ 256 ≠ 0 :=
    not_congr BitVec.toNat_inj.symm
  rw [pow_res_eq_canon, canon_mag, canon_neg]
  refine ⟨BitVec.toNat_ofNat _ _, ?_⟩
  rw [Bool.and_eq_true, Bool.and_eq_true, decide_eq_true_iff, decide_eq_true_iff, nonzero, and_assoc]

/-- Settles O58: the loop's result in each of the three ranges, and the first report. -/
theorem factorialRanges : Obligations.FactorialRanges := by
  intro w fwd n
  refine ⟨fun h => ⟨factorial_of_le_57 fwd h, factorial_lt_of_le h⟩,
    fun h58 h257 => ⟨factorial_of_le_257 fwd h58 h257, ?_⟩, factorial_of_ge_258 fwd, ?_⟩
  · exact mt (factorial_mod_eq_zero_iff _).mp (by omega)
  · rintro h58 rfl
    exact factorial_mulOverflows_head? h58

end Sys2Proof.Machine
end

section
/-!
SUPPORT. Every edge of 10_state.md R19 and 70_reset_and_hazards.md R170 answers a next state (60_exceptions.md R157).
-/

namespace Sys2Proof.Machine

variable {s : State}

/-- `execute` answers with the response of the latched request, for every command word (R44, R157). -/
theorem execute_eq_next (s : State) :
    execute s = .next { s.sampled with phase := .done, rsp := respond s.req } := by
  rw [execute_eq_complete, State.complete_eq]

/-- Under the host's duty every edge answers: `rst` decides, then the phase (R19, R170). -/
theorem exists_step_next (hh : s.HostHolds) : ∃ t, step s = .next t := by
  cases hr : s.pins.rst with
  | true => exact ⟨_, step_of_rst hh hr⟩
  | false =>
    cases hp : s.phase with
    | idle =>
      cases hv : s.pins.reqValid with
      | true => exact ⟨_, step_of_accept hh hr hp hv⟩
      | false => exact ⟨_, step_of_idle_wait hh hr hp hv⟩
    | busy =>
      cases hl : s.latency with
      | zero => exact ⟨_, (step_of_execute hh hr hp hl).trans (execute_eq_next s)⟩
      | succ n => exact ⟨_, step_of_busy_wait hh hr hp hl⟩
    | done =>
      cases hy : s.pins.rspReady with
      | true => exact ⟨_, step_of_take hh hr hp hy⟩
      | false => exact ⟨_, step_of_done_wait hh hr hp hy⟩

end Sys2Proof.Machine
end

section
/-!
SUPPORT. The sum of two integers of 256-bit magnitude needs more than 256 bits only if their signs agree
(60_exceptions.md R152), which is what ADD and SUB report.
-/

namespace Sys2Proof.Machine

/-- With differing signs the sum is no greater than either operand. -/
theorem natAbs_signedInt_add_opposite_lt (n : Bool) {j k bound : Nat} (hj : j < bound) (hk : k < bound) :
    (signedInt n j + signedInt (!n) k).natAbs < bound := by
  cases n with
  | false =>
    simp only [signedInt, Bool.not_false, if_true, Bool.false_eq_true, if_false]
    omega
  | true =>
    simp only [signedInt, Bool.not_true, if_true, Bool.false_eq_true, if_false]
    omega

/-- A sum needs more than 256 bits exactly when the signs agree and the sum of the magnitudes does (R152). -/
theorem Int256.add_overflows_iff (a b : Int256) :
    2 ^ 256 ≤ (a.toInt + b.toInt).natAbs ↔ a.neg = b.neg ∧ a.mag.toNat + b.mag.toNat ≥ 2 ^ 256 := by
  rw [toInt_eq_signedInt, toInt_eq_signedInt]
  by_cases hs : a.neg = b.neg
  · rw [hs, signedInt_add_same, signedInt_natAbs, and_iff_right rfl]
  · rw [Bool.eq_not_of_ne (Ne.symm hs)]
    have fits := natAbs_signedInt_add_opposite_lt a.neg a.mag.isLt b.mag.isLt
    exact iff_of_false fits.not_ge fun ⟨same, _⟩ => (Bool.eq_not_self _).mp same

/-- The diagnostic of the adder, on the operands as it reads them (R82, R152). -/
theorem addSigned_diag (a b : Int256) :
    (addSigned a b).2.code =
      if a.neg = b.neg ∧ a.mag.toNat + b.mag.toNat ≥ 2 ^ 256 then 0b01 else 0b00 := by
  rw [addSigned_eq_exactSum, exactSum, overflowIf_code]
  simp only [decide_eq_true_eq, Int256.add_overflows_iff]

/-- The diagnostic of the adder where SUB calls it: at zero the sign of the second operand does not matter, since
nothing overflows (R83, R152). -/
theorem addSigned_negate_diag (a b : Int256) :
    (addSigned a (negate b)).2.code =
      if a.neg ≠ b.neg ∧ a.mag.toNat + b.mag.toNat ≥ 2 ^ 256 then 0b01 else 0b00 := by
  have opposite : (negate b).toInt = (⟨!b.neg, b.mag⟩ : Int256).toInt := canon_toInt ⟨!b.neg, b.mag⟩
  rw [addSigned_eq_exactSum, opposite, ← addSigned_eq_exactSum, addSigned_diag]
  simp only [Bool.eq_not]

/-- The diagnostic of the multiplier (R92, R152). -/
theorem mulSigned_diag (a b : Int256) :
    (mulSigned a b).2.code = if a.mag.toNat * b.mag.toNat ≥ 2 ^ 256 then 0b01 else 0b00 := by
  rw [mulSigned_eq, overflowIf_code]
  simp only [decide_eq_true_eq, ge_iff_le]

/-- The diagnostic of the divider (R101, R152). -/
theorem divSigned_diag (a b : Int256) : (divSigned a b).2.code = if b.mag = 0 then 0b10 else 0b00 := by
  split
  · next hb => rw [divSigned_of_zero hb]; rfl
  · next hb => rw [divSigned_of_ne_zero hb]; rfl

/-- Likewise for the remainder. -/
theorem modSigned_diag {a : Int256} (ha : a.canonical) (b : Int256) :
    (modSigned a b).2.code = if b.mag = 0 then 0b10 else 0b00 := by
  split
  · next hb => rw [modSigned_of_zero hb]; rfl
  · next hb => rw [modSigned_of_ne_zero ha hb]; rfl

/-- The response an operation leaves in `RSP` (R19). -/
theorem exec_next_rsp {i : Instr} {s t : State} (h : exec i s = .next t) : t.rsp = responseOf (exec i s) :=
  (congrArg responseOf h).symm

end Sys2Proof.Machine
end

section
/-! The statements of 60_exceptions.md, settled. -/

namespace Sys2Proof.Machine

/-- Settles O11: under the host's duty `rst`, or else the phase, gives the edge, and every edge answers; without it
the step is refused. -/
theorem onlyBrokenHandshakeStops : Obligations.OnlyBrokenHandshakeStops :=
  fun _ => ⟨exists_step_next, step_of_broken_handshake⟩

/-- Settles O52: the adder, the multiplier and the divider each report on the condition of their row, and every other
operation answers without a diagnostic. -/
theorem diagnosticsExactly : Obligations.DiagnosticsExactly := by
  intro i s t h
  rw [exec_next_rsp h]
  cases i with
  | add => exact addSigned_diag s.opA s.opB
  | sub => exact addSigned_negate_diag s.opA s.opB
  | mul => exact mulSigned_diag s.opA s.opB
  | div => exact divSigned_diag s.opA s.opB
  | mod => exact modSigned_diag s.opA_canonical s.opB
  | iszero | neg | abs | cmpmag | cmp | fmthex | fmtdec | and | or | xor | shl | shr => rfl

end Sys2Proof.Machine
end

section
/-!
SUPPORT. The output ports in each phase (70_reset_and_hazards.md R170, R174, R175).
-/

namespace Sys2Proof.Machine

variable {s : State}

/-- With `rst` asserted both handshake outputs are 0 (R170). -/
theorem State.handshake_low_of_rst (hr : s.pins.rst = true) : s.reqReady = false ∧ s.rspValid = false := by
  simp [State.reqReady, State.rspValid, hr]

/-- While the response is valid the outputs are `RSP`, whatever the rest of the state and of the levels (R175). -/
theorem State.outputs_of_done (hp : s.phase = .done) (hr : s.pins.rst = false) :
    s.outputs = ⟨false, true, s.rsp⟩ := by
  simp [State.outputs, State.reqReady, State.rspValid, hp, hr]

end Sys2Proof.Machine
end

section
/-!
SUPPORT. Runs with `rst` at any edge (70_reset_and_hazards.md R170, R178): a reset drops the response owed and takes
none, so what is taken and owed stays within what was accepted, in order.
-/

namespace Sys2Proof.Machine

variable {s t : State}

/-- The responses taken, and then the one owed, are among those of the requests accepted, in order. -/
structure Run.WithinOrder (r : Run) : Prop where
  inv : r.state.Inv
  answered : (r.taken ++ r.state.owed).Sublist (r.accepted.map respond)

/-- An edge takes and leaves owed nothing but what was owed or is accepted: `rst` abandons it, and any other edge
conserves it. -/
theorem step_owed_sublist (hi : s.Inv) (h : step s = .next t) :
    (s.takenNow ++ t.owed).Sublist (s.owed ++ s.acceptedNow.map respond) := by
  cases hr : s.pins.rst with
  | false => rw [step_conserves_owed hi hr h]
  | true =>
    obtain ⟨hh, -⟩ := step_next_cases h
    obtain rfl : s.resetEdge = t := by simpa [step_of_rst hh hr] using h
    have none_taken : s.takenNow = [] := by simp [State.takenNow, State.taking_iff, hr]
    have none_owed : s.resetEdge.owed = [] := State.owed_of_idle rfl
    rw [none_taken, none_owed]
    exact List.nil_sublist _

namespace Run

variable {r r' : Run}

theorem InOrder.withinOrder (h : r.InOrder) : r.WithinOrder where
  inv := h.inv
  answered := h.answered ▸ .refl _

/-- Any edge appends to both histories what `step_owed_sublist` compares. -/
theorem WithinOrder.edge {p : PortIn} (h : r.WithinOrder) (he : r.edge p = some r') : r'.WithinOrder := by
  obtain ⟨t, hs, rfl⟩ := edge_next he
  have driven : (r.state.drive p).Inv := h.inv.drive p
  refine ⟨step_preserves_inv driven hs, ?_⟩
  have now := (step_owed_sublist driven hs).append_left r.taken
  have before := h.answered.append_right ((r.state.drive p).acceptedNow.map respond)
  rw [record_accepted, record_taken, List.map_append, List.append_assoc]
  rw [State.drive_owed, ← List.append_assoc _ r.state.owed] at now
  exact now.trans before

end Run

end Sys2Proof.Machine
end

section
/-!
SUPPORT. The block left with its levels unchanged (70_reset_and_hazards.md R178, R180): the host's duty holds by itself,
and the steps count the latency down to the edge that executes.
-/

namespace Sys2Proof.Machine

variable {s t : State}

theorem State.accept_hostHolds (s : State) : s.accept.HostHolds := nofun

/-- An offer recorded from the present levels is still held under them. -/
theorem State.busyEdge_hostHolds (n : Nat) (s : State) : (s.busyEdge n).HostHolds := by
  intro r hr
  rw [State.busyEdge_offer, State.standingOffer, Option.ite_none_right_eq_some, Option.some.injEq] at hr
  exact hr

/-- A run goes on from the state its first step answers. -/
theorem core_run_succ_of_next (M : Host.Core) {s t : M.State} (h : M.step s = .next t) (k : Nat) :
    M.run (k + 1) s = M.run k t := by
  rw [Host.Core.run, h]

theorem core_run_succ (h : step s = .next t) (k : Nat) : core.run (k + 1) s = core.run k t :=
  core_run_succ_of_next core h k

/-- A latched request is answered at the edge after its latency. -/
theorem core_run_busy {n : Nat} (hh : s.HostHolds) (hr : s.pins.rst = false) (hp : s.phase = .busy)
    (hl : s.latency = n) :
    ∃ t, core.run (n + 1) s = .next t ∧ t.phase = .done ∧ t.req = s.req ∧ t.rsp = respond s.req := by
  induction n generalizing s with
  | zero =>
    have answered := (step_of_execute hh hr hp hl).trans (execute_eq_next s)
    exact ⟨_, core_run_succ answered 0, rfl, rfl, rfl⟩
  | succ n ih =>
    rw [core_run_succ (step_of_busy_wait hh hr hp hl)]
    exact ih (s.busyEdge_hostHolds n) hr hp rfl

end Sys2Proof.Machine
end

section
/-! The statements of 70_reset_and_hazards.md, settled. -/

namespace Sys2Proof.Machine

/-- Settles O14: `execute` writes the response the invariant names, and no other edge enters or rewrites `DONE`. -/
theorem stepKeepsResponseOfRequest : Obligations.StepKeepsResponseOfRequest := fun _ _ => step_preserves_inv

/-- Settles O23: a run from an idle state starts in order, and every edge stays within it. -/
theorem resetsOnlyAbandonResponses : Obligations.ResetsOnlyAbandonResponses := by
  intro s ins r hp hrun
  have within : r.WithinOrder :=
    Run.edges_preserve ins (fun _ _ _ _ h he => h.edge he) (Run.inOrder_start hp).withinOrder hrun
  exact (List.sublist_append_left _ _).trans within.answered

/-- Settles O24: one step accepts the request, and the steps after it count its latency down and execute it. -/
theorem offeredRequestIsAnswered : Obligations.OfferedRequestIsAnswered := by
  intro s hp hr hv hh
  rw [core_run_succ (step_of_accept hh hr hp hv)]
  exact core_run_busy s.accept_hostHolds hr rfl rfl

/-- Settles O8: in each of the three cases the edge is one that waits. -/
theorem otherEdgesWait : Obligations.OtherEdgesWait := by
  intro s hh hr waits
  obtain ⟨hp, hv⟩ | ⟨hp, hl⟩ | ⟨hp, hy⟩ := waits
  · exact ⟨_, step_of_idle_wait hh hr hp hv, rfl, rfl, rfl, rfl, rfl, by simp [hp]⟩
  · obtain ⟨n, hn⟩ := Nat.exists_eq_succ_of_ne_zero hl
    exact ⟨_, step_of_busy_wait hh hr hp hn, rfl, rfl, rfl, rfl, rfl, by simp [hp, hn]⟩
  · exact ⟨_, step_of_done_wait hh hr hp hy, rfl, rfl, rfl, rfl, rfl, by simp [hp]⟩

/-- Settles O9: `rst` holds both handshake outputs low, and the edge is the reset whatever the phase. -/
theorem resetInputAbandonsTransaction : Obligations.ResetInputAbandonsTransaction := by
  intro s hr
  obtain ⟨hready, hvalid⟩ := s.handshake_low_of_rst hr
  exact ⟨hready, hvalid, fun hh => ⟨_, step_of_rst hh hr, rfl, rfl, rfl⟩⟩

/-- Settles O12: the handshake outputs are the phase where `rst` is low, and a valid response is `RSP`. -/
theorem outputPortsFollowPhase : Obligations.OutputPortsFollowPhase := by
  intro s hr
  refine ⟨?_, ?_, fun hp => congrArg PortOut.rsp (s.outputs_of_done hp hr)⟩
  · rw [State.outputs_reqReady, State.reqReady_iff, and_iff_left hr]
  · rw [State.outputs_rspValid, State.rspValid_iff, and_iff_left hr]

/-- Settles O13: the edge waits in `DONE` and keeps `RSP`, which is all the outputs show there. -/
theorem validResponseIsHeld : Obligations.ValidResponseIsHeld := by
  intro s p hh hvalid hy hrst
  obtain ⟨hp, hr⟩ := s.rspValid_iff.mp hvalid
  refine ⟨s.waitEdge, step_of_done_wait hh hr hp hy, ?_⟩
  rw [s.outputs_of_done hp hr, State.outputs_of_done (s := s.waitEdge.drive p) hp hrst]
  rfl

end Sys2Proof.Machine
end
